-- ==== Sys2Proof/Word.lean ====
section
/-! DEFINITION. The words of the part: bytes, addresses, identities, 16-bit counts. -/

namespace Sys2Proof

/-- One byte of a host message or the 8 data bits of a line character (R66, R156). -/
abbrev Byte := BitVec 8

/-- A two-byte field or a 16-bit counter (00, Conventions). -/
abbrev Word16 := BitVec 16

/-- A node's 32-bit factory number (Table 1-1). -/
abbrev Identity := BitVec 32

/-- The address part of a head character, 0–127 (R67). -/
abbrev Address := BitVec 7

/-- A 10-bit handle's parts are an index 0–63 and a generation 0–15 (R2). -/
abbrev EntryIndex := Fin 64

/-- Index of a transfer record (R26). -/
abbrev RecordIndex := Fin 32

/-- Index of a receive slot (R89). -/
abbrev SlotIndex := Fin 16

end Sys2Proof
end

