-- ==== Sys2Proof/Syntax.lean ====
section
/-! DEFINITION. The commands of the part: one constructor for each row of spec/opcode_table.json. -/

namespace Sys2Proof

/-- The two lines (Table 3 of 00). -/
inductive Line where
  | A
  | B
deriving DecidableEq, Repr

/-- The two line levels (R132). -/
inductive Level where
  | dominant
  | recessive
deriving DecidableEq, Repr

/-- Samples 4, 5 and 6 of `n` bits in a row, bit `k` of each vector belonging to the `k`-th bit
received; 1 is recessive or high (R136, R137, R157). -/
structure Samples (n : Nat) where
  s4 : BitVec n
  s5 : BitVec n
  s6 : BitVec n
deriving DecidableEq, Repr

/-- A command of the table. A request carries the sequence byte and the body of the good frame
that brings it (R161, R162), so that every length and every code of the body can be given. -/
inductive Instr where
  /-- 0x01, R170. -/
  | identify (seq : Byte) (body : List Byte)
  /-- 0x02, R173. -/
  | configureLine (seq : Byte) (body : List Byte)
  /-- 0x03, R174. -/
  | queryLine (seq : Byte) (body : List Byte)
  /-- 0x04, R118, R175. -/
  | startLine (seq : Byte) (body : List Byte)
  /-- 0x05, R125, R176. -/
  | stopLine (seq : Byte) (body : List Byte)
  /-- 0x06, R127, R177. -/
  | resetLine (seq : Byte) (body : List Byte)
  /-- 0x07, R178. -/
  | addNode (seq : Byte) (body : List Byte)
  /-- 0x08, R179. -/
  | removeNode (seq : Byte) (body : List Byte)
  /-- 0x09, R180. -/
  | setNode (seq : Byte) (body : List Byte)
  /-- 0x0A, R181. -/
  | queryNode (seq : Byte) (body : List Byte)
  /-- 0x0B, R21, R181. -/
  | listNodes (seq : Byte) (body : List Byte)
  /-- 0x0C, R182. -/
  | submit (seq : Byte) (body : List Byte)
  /-- 0x0D, R183. -/
  | cancel (seq : Byte) (body : List Byte)
  /-- 0x0E, R47, R183. -/
  | queryTransfer (seq : Byte) (body : List Byte)
  /-- 0x0F, R101, R184. -/
  | discover (seq : Byte) (body : List Byte)
  /-- 0x10, R113, R184. -/
  | stopDiscovery (seq : Byte) (body : List Byte)
  /-- 0x11, R171. -/
  | credit (seq : Byte) (body : List Byte)
  /-- 0x12, R172. -/
  | resetPart (seq : Byte) (body : List Byte)
  /-- A good frame whose kind is not a request kind (R162). -/
  | unknownKind (kind seq : Byte) (body : List Byte)
  /-- The second check byte of an inbound frame: start, data 0–7, stop (R157, R158). -/
  | hostFrameReceived (check : Samples 10)
  /-- A length byte of 0, 1 or 203–255: start, data 0–7, stop (R157, R158). -/
  | badFrameLength (length : Samples 10)
  /-- HRX goes high after a low stop bit (R157). -/
  | byteFramingError
  /-- 10 ms without a verified start in a frame in progress (R159). -/
  | hostGapTimeout
  /-- HRX held low for 20 bit times (R160). -/
  | hostBreak
  /-- The last byte of a reply is sent (R161); `straps` is RATE1, RATE0 as the pins stand. -/
  | replySent (straps : BitVec 2)
  /-- The last byte of a report is sent (R150). -/
  | reportSent
  /-- The last byte of the ANNOUNCE is sent (R165). -/
  | announceSent
  /-- A power-on reset, to its end (R187). -/
  | powerOnReset (straps : BitVec 2)
  /-- RESET taken low (R187). -/
  | resetPinLow
  /-- The rising edge of RESET (R187). -/
  | resetPinRelease (straps : BitVec 2)
  /-- The master frame's last stop bit ends on TX (R75, R143; log entry 13). -/
  | frameSent (l : Line)
  /-- The echo check finds a difference (R74, R143). -/
  | echoContention (l : Line)
  /-- The line receiver completes a character: data 0–7, mark, stop (R138). -/
  | lineCharacterReceived (l : Line) (bits : Samples 10)
  /-- A start fails verification (R136). -/
  | falseStart (l : Line)
  /-- The second check character of a reply is complete (R78, R79). -/
  | replyComplete (l : Line) (bits : Samples 10)
  /-- The reply window expires (R77). -/
  | replyWindowExpiry (l : Line)
  /-- The gap timer reaches the gap limit (R141). -/
  | gapLimitExceeded (l : Line)
  /-- The guard ends (R84). -/
  | guardExpiry (l : Line)
  /-- A record's deadline timer expires (R41). -/
  | deadlineExpiry (record : RecordIndex)
  /-- The cycle-floor timer elapses (R60). -/
  | cycleFloorExpiry (l : Line)
  /-- The wake break ends (R119). -/
  | wakeBreakEnd (l : Line)
  /-- The quiet passes recessive (R119). -/
  | quietComplete (l : Line)
  /-- Dominant level in the quiet after the allowance (R119). -/
  | dominantInQuiet (l : Line)
  /-- A dominant run of more than 4 character times (R120). -/
  | stuckDominant (l : Line)
  /-- The fault hold ends (R123). -/
  | faultHoldExpiry (l : Line)
  /-- The recovery watch passes recessive (R124). -/
  | recoveryWatchComplete (l : Line)
  /-- Dominant level in the recovery watch (R124). -/
  | dominantInRecoveryWatch (l : Line)
  /-- A byte on HRX is at the decision of its stop bit: start, data 0–7, stop (R157, R158). -/
  | hostByteReceived (byte : Samples 10)
  /-- A start is verified on HRX (R159). -/
  | hostStartVerified
  /-- A start is verified on a line; `noisy` when its three samples disagree (R136, R137). -/
  | startVerified (l : Line) (noisy : Bool)
  /-- 8 recessive samples in a row (R135). -/
  | receiverArmed (l : Line)
  /-- RX changes level (R120, R135). -/
  | lineLevelChange (l : Line) (level : Level)
deriving DecidableEq, Repr

end Sys2Proof
end

