-- ==== Sys2Proof/Config.lean ====
section
/-! DEFINITION. What the part's making fixes: its codes, capacities and clock. No value of this part
is left free by the spec, so there is no opaque constant here. -/

namespace Sys2Proof.Config

/-- The vendor code (12, after Table 12-5). -/
def vendorCode : Word16 := 0x5C31

/-- The part code (12, after Table 12-5). -/
def partCode : Word16 := 0x0264

/-- The revision (12, after Table 12-5). -/
def revision : Byte := 1

/-- The capacities block, bytes 0 to 7 (Table 12-6). -/
def capacities : List Byte := [2, 64, 32, 16, 117, 4, 48, 33]

/-- Inbox entries (R161). -/
def inboxEntries : Nat := 4

/-- Most payload bytes of a line frame (R66). -/
def payloadMaximum : Nat := 48

end Sys2Proof.Config
end

