-- ==== Sys2Proof/Machine/Bytes.lean ====
section
/-! DEFINITION. Bits and bytes: majority of samples, byte order, the check sequence, saturating counts. -/

namespace Sys2Proof

/-- Each bit is the majority of its samples 4, 5 and 6 (R137, R157). -/
def Samples.value {n : Nat} (x : Samples n) : BitVec n :=
  (x.s4 &&& x.s5) ||| (x.s4 &&& x.s6) ||| (x.s5 &&& x.s6)

/-- Some bit's three samples do not all agree (R137). -/
def Samples.disagree {n : Nat} (x : Samples n) : Bool := x.s4 != x.s5 || x.s5 != x.s6

/-- Bits sampled without noise. -/
def Samples.clean {n : Nat} (v : BitVec n) : Samples n := ⟨v, v, v⟩

/-- The 10 bits of a byte on the host link, the first sent in bit 0: start (low), data least significant
first, stop (high) (R156). -/
def byteWord (b : Byte) : BitVec 10 := 1#1 ++ b ++ 0#1

/-- A byte on HRX sampled without noise. -/
def Samples.ofByte (b : Byte) : Samples 10 := .clean (byteWord b)

/-- The start bit of a byte on HRX is decided low: the start is verified (R157). -/
def Samples.startLow (x : Samples 10) : Bool := !x.value.getLsbD 0

/-- The data of a byte on HRX (R156, R157). -/
def Samples.byteData (x : Samples 10) : Byte := x.value.extractLsb' 1 8

/-- The stop bit of a byte on HRX is decided high (R157). -/
def Samples.stopHigh (x : Samples 10) : Bool := x.value.getLsbD 9

namespace Machine

/-- 0x01–0x12 are the request kinds (R162, Table 12-1). -/
def isRequestKind (kind : Byte) : Bool := 1 ≤ kind.toNat && kind.toNat ≤ 0x12

/-- A length byte of 0, 1 or 203–255 abandons the frame (R158). -/
def isBadLength (length : Byte) : Bool := length.toNat < 2 || 202 < length.toNat

/-- Two bytes, least significant first (00, Byte order). -/
def le16 (x : Word16) : List Byte := [x.extractLsb' 0 8, x.extractLsb' 8 8]

/-- Four bytes, least significant first. -/
def le32 (x : BitVec 32) : List Byte :=
  [x.extractLsb' 0 8, x.extractLsb' 8 8, x.extractLsb' 16 8, x.extractLsb' 24 8]

/-- The word of two bytes sent least significant first. -/
def word16 (lo hi : Byte) : Word16 := hi ++ lo

/-- The word of four bytes sent least significant first. -/
def word32 (b0 b1 b2 b3 : Byte) : BitVec 32 := b3 ++ b2 ++ b1 ++ b0

/-- yes 1, no 0 (Table 12-2). -/
def yesNo (b : Bool) : Byte := if b then 1 else 0

/-- One bit of the division by x^16 + x^12 + x^5 + 1, most significant first (R186). -/
def crcShift (r : Word16) : Word16 :=
  if r.msb then (r <<< 1) ^^^ 0x1021 else r <<< 1

/-- The check register after one more byte (R186). -/
def crcByte (r : Word16) (b : Byte) : Word16 :=
  crcShift (crcShift (crcShift (crcShift (crcShift (crcShift (crcShift (crcShift
    (r ^^^ (b.zeroExtend 16 <<< 8)))))))))

/-- The register's initial value (R70). -/
def crcStart : Word16 := 0xFFFF

/-- The check of a list of bytes (00, Check sequence; R70, R158). -/
def crc (bytes : List Byte) : Word16 := bytes.foldl crcByte crcStart

/-- A counter goes up by 1 and stops at its greatest value (00, Counters). -/
def satInc {n : Nat} (c : BitVec n) : BitVec n := if c = BitVec.allOnes n then c else c + 1

/-- Vendor code, part code, revision and capacities, as IDENTIFY and ANNOUNCE give them (R165, R170). -/
def partData : List Byte :=
  le16 Config.vendorCode ++ le16 Config.partCode ++ [Config.revision] ++ Config.capacities

/-- The body of ANNOUNCE for a cause code (Table 12-5). -/
def announceBody (cause : Byte) : List Byte := cause :: partData

end Machine
end Sys2Proof
end

