-- ==== Sys2Proof/Machine/State.lean ====
section
/-! DEFINITION. The state of the part, block by block (Figure 1 of 00), and its values after a reset. -/

namespace Sys2Proof.Machine

/-! ### Time -/

/-- A length of time, in units of 1/25 of a clock of 29.4912 MHz, in which every timing of the
manual is a whole number (R187; log entry 21). -/
abbrev Duration := Nat

/-- A timer is stopped (`none`) or running towards the length it was set to (log entry 1). -/
abbrev Timer := Option Duration

/-! ### Node table (01) -/

/-- The handle of an entry (R2). -/
structure Handle where
  index : EntryIndex
  generation : BitVec 4
deriving DecidableEq, Repr

/-- Table 1-2. -/
inductive NodeState where
  | free | pending | active | silent | lost | parked
deriving DecidableEq, Repr

/-- Table 1-1, poll class. -/
inductive PollClass where
  | fast | steady | slow
deriving DecidableEq, Repr

/-- Table 1-3. -/
inductive ChangeReason where
  | none | added | replied | missed | lost | removed | parked | unparked | lineStarted
  | assigned | reassigned
deriving DecidableEq, Repr

/-- A node entry (Table 1-1). -/
structure NodeEntry where
  generation : BitVec 4
  state : NodeState
  line : Line
  address : Address
  identity : Option Identity
  pollClass : PollClass
  missRun : Nat
  putToggle : Bool
  acceptedToggle : Bool
  restartPending : Bool
  morePending : Bool
  removalPending : Bool
  assignHold : Bool
  noticePending : Bool
  changeCount : BitVec 8
  lastChange : ChangeReason
  goodReplies : Word16
  misses : Word16
deriving DecidableEq, Repr

/-! ### Transfer pool (02) -/

/-- Table 2-2. -/
inductive RecordState where
  | free | queued | inFlight | completed
deriving DecidableEq, Repr

/-- Table 2-1, kind. -/
inductive TransferKind where
  | put | take | sendAll
deriving DecidableEq, Repr

/-- Table 2-1, priority. -/
inductive Priority where
  | normal | urgent
deriving DecidableEq, Repr

/-- Table 2-4. -/
inductive TransferResult where
  | done | rejected | busy | noAnswer | nodeLost | nodeGone | expired | cancelled | aborted
deriving DecidableEq, Repr

/-- R69. -/
inductive NakReason where
  | busy | refused
deriving DecidableEq, Repr

/-- A transfer record (Table 2-1) with its deadline timer (R41). -/
structure TransferRecord where
  state : RecordState
  tag : Word16
  line : Line
  target : Option Handle
  kind : TransferKind
  priority : Priority
  payload : List Byte
  retryBudget : Nat
  attempts : Nat
  deadline : Option Word16
  deadlineTimer : Timer
  result : Option TransferResult
  replyData : Option (List Byte)
  nakReason : Option NakReason
deriving DecidableEq, Repr

/-! ### Receive store (05) -/

/-- Table 5-2. -/
inductive SlotState where
  | free | reserved | filled | sending
deriving DecidableEq, Repr

/-- A receive slot (Table 5-1); the payload's length is the list's. -/
structure ReceiveSlot where
  state : SlotState
  line : Line
  handle : Handle
  address : Address
  payload : List Byte
deriving DecidableEq, Repr

/-! ### Line frames and the line engine (04) -/

/-- A master frame with the fields Table 4-2 gives its kind. -/
inductive MasterFrame where
  | poll (address : Address) (ackToggle hold restart : Bool)
  | put (address : Address) (toggle restart : Bool) (payload : List Byte)
  | take (address : Address) (restart : Bool) (payload : List Byte)
  | sendAll (payload : List Byte)
  | invite (length : Nat) (value : BitVec 32)
  | assign (identity : Identity) (address : Address)
deriving DecidableEq, Repr

/-- The contents of a reply judged REPLY (Table 4-3, R80). -/
inductive NodeReply where
  | ack
  | nak (reason : NakReason)
  | data (toggle more : Bool) (payload : List Byte)
  | empty (more : Bool)
  | bid (identity : Identity)
deriving DecidableEq, Repr

/-- Table 4-6. -/
inductive ExchangeOutcome where
  | reply (contents : NodeReply)
  | noReply
  | badReply
  | contention
  | sent
  | lineFault
  | aborted
deriving DecidableEq, Repr

/-- What an exchange carries (R72): for a POLL the entry and the slot reserved for it, for a
transfer its record and target, for an ASSIGN the entry it reuses, if it reuses one (R23). -/
inductive Carried where
  | poll (target : Handle) (slot : Option SlotIndex)
  | transfer (record : RecordIndex) (target : Option Handle)
  | invite
  | assign (reused : Option Handle)
deriving DecidableEq, Repr

/-- The exchange an engine holds (R72). -/
structure Exchange where
  frame : MasterFrame
  carried : Carried
deriving DecidableEq, Repr

/-- The line engine (Table 4-4) with what each state holds (R72). -/
inductive Engine where
  | idle
  /-- `echoed` characters have come back as sent; `differs` once the echo check has found a
  difference (R74, R142). -/
  | sending (x : Exchange) (echoed : Nat) (differs : Bool)
  /-- `window` is none once the window has expired with a character in progress (R77). -/
  | awaiting (x : Exchange) (window : Timer)
  /-- `got` is the reply so far, head first (R78). -/
  | receiving (x : Exchange) (got : List Byte) (gap : Timer)
  | guard (x : Exchange) (outcome : ExchangeOutcome) (timer : Duration)
deriving DecidableEq, Repr

/-! ### Line scheduler (03) -/

/-- The cycle-floor timer (Table 3-2, R60). -/
inductive FloorTimer where
  | stopped
  | running (d : Duration)
  | elapsed
deriving DecidableEq, Repr

/-- Table 3-2. -/
structure Scheduler where
  running : Bool
  cycle : Word16
  walk : Nat
  interleaveCount : Nat
  floor : FloorTimer
  turnTaken : Bool
  stepInProgress : Bool
deriving DecidableEq, Repr

/-! ### Line guard (07) -/

/-- Table 7-2. -/
inductive LineState where
  | down | starting | running | stopping | faulted | recovering
deriving DecidableEq, Repr

/-- Table 7-1, start cause. -/
inductive StartCause where
  | request | recovery
deriving DecidableEq, Repr

/-- Table 7-1, fault reason. -/
inductive FaultReason where
  | none | stuck | contention | startNotQuiet | recoveryNotQuiet
deriving DecidableEq, Repr

/-- The watch timer and what it times (Table 7-1). -/
inductive Watch where
  | stopped
  | wakeBreak (d : Duration)
  | quiet (d : Duration)
  | recovery (d : Duration)
deriving DecidableEq, Repr

/-- The line configuration (Table 7-4), each parameter as the byte or two-byte field that sets it. -/
structure LineParams where
  rateCode : Byte
  replyTimeout : Byte
  guardTime : Byte
  gapLimit : Byte
  missLimit : Byte
  interleave : Byte
  cycleFloor : Word16
  faultHold : Byte
  assignLow : Byte
  assignHigh : Byte
deriving DecidableEq, Repr

/-- The nine counters of Table 7-5. -/
structure LineCounters where
  exchangesStarted : Word16
  noReply : Word16
  badReply : Word16
  contention : Word16
  noisyCharacters : Word16
  falseStarts : Word16
  duplicates : Word16
  faults : Word16
  cyclesCompleted : Word16
deriving DecidableEq, Repr

/-- The line guard (Table 7-1); `stuckRun` is the dominant run of R120. -/
structure LineGuard where
  lineState : LineState
  startCause : StartCause
  stopAfterHold : Bool
  faultReason : FaultReason
  contentionRun : Nat
  holdTimer : Timer
  watch : Watch
  recoveryCount : BitVec 8
  noticePending : Bool
  params : LineParams
  counters : LineCounters
  stuckRun : Timer
deriving DecidableEq, Repr

/-! ### Discovery unit (06) -/

/-- Table 6-3. -/
inductive StopReason where
  | done | cancelled | tableFull | addressPoolEmpty | lineFault | lineStopped
deriving DecidableEq, Repr

/-- Table 6-1, stop pending. -/
inductive StopPending where
  | none | cancelled | lineStopped
deriving DecidableEq, Repr

/-- A range of the stack (Table 6-1). -/
structure IdRange where
  value : BitVec 32
  length : Nat
  failures : Nat
deriving DecidableEq, Repr

/-- The node now being bound (Table 6-1). -/
structure Assignment where
  entry : EntryIndex
  claimed : Bool
  address : Address
  sent : Nat
deriving DecidableEq, Repr

/-- The last result (Table 6-1). -/
structure DiscoveryResult where
  reason : StopReason
  found : Word16
  reassigned : Word16
  clashes : Word16
  unresponsive : Word16
deriving DecidableEq, Repr

/-- The discovery record (Table 6-1); the head of `stack` is its top. -/
structure Discovery where
  active : Bool
  stopPending : StopPending
  stack : List IdRange
  bid : Option Identity
  assignment : Option Assignment
  found : Word16
  reassigned : Word16
  clashes : Word16
  unresponsive : Word16
  lastResult : Option DiscoveryResult
  noticePending : Bool
deriving DecidableEq, Repr

/-! ### Line receiver and pins (08) -/

/-- Table 8-3. -/
inductive ReceiverState where
  | searchUnarmed | searchArmed | start | bits | stop
deriving DecidableEq, Repr

/-- The line receiver; `startNoisy` when the verified start's samples disagreed (R137). -/
structure Receiver where
  state : ReceiverState
  startNoisy : Bool
deriving DecidableEq, Repr

/-- What a line's TX pin carries (R132): rest is recessive, a wake break dominant, a frame its bits. -/
inductive TxDrive where
  | rest | wakeBreak | frame
deriving DecidableEq, Repr

/-- The three pins of a line (Table 8-1). -/
structure LinePins where
  tx : TxDrive
  de : Bool
  rx : Level
deriving DecidableEq, Repr

/-! ### One line's blocks -/

/-- The blocks marked "per line" in Figure 1 of 00, and the line's two queues (R28). -/
structure LineBlock where
  guard : LineGuard
  scheduler : Scheduler
  engine : Engine
  discovery : Discovery
  receiver : Receiver
  pins : LinePins
  urgent : List RecordIndex
  normal : List RecordIndex
deriving DecidableEq, Repr

/-! ### Report queue and host link (09, 10) -/

/-- A report source (Table 9-1). -/
inductive Source where
  | completion (r : RecordIndex)
  | node (i : EntryIndex)
  | data (k : SlotIndex)
  | line (l : Line)
  | discovery (l : Line)
  | link
deriving DecidableEq, Repr

/-- An outbound message before framing: kind, sequence byte and body (Table 10-2). -/
structure Message where
  kind : Byte
  seq : Byte
  body : List Byte
deriving DecidableEq, Repr

/-- The states of an inbox entry (R161), with the reply once it is built. -/
inductive EntryState where
  | waiting
  | ready (reply : Message)
  | sending (reply : Message)
deriving DecidableEq, Repr

/-- An inbox entry (R161). -/
structure InboxEntry where
  kind : Byte
  seq : Byte
  body : List Byte
  state : EntryState
deriving DecidableEq, Repr

/-- The inbound frame being collected: length, bytes so far, running check (Table 10-1). -/
structure InFrame where
  length : Nat
  bytes : List Byte
  check : Word16
deriving DecidableEq, Repr

/-- The parser (R158). -/
inductive Parser where
  | hunt
  | length
  | body (f : InFrame)
  | check (f : InFrame) (first : Option Byte)
deriving DecidableEq, Repr

/-- The host receiver (R157): searching for a start, a byte in progress after a verified start, or a
byte whose stop bit was decided low and whose HRX is watched. -/
inductive HostReceiver where
  | search | byte | stopLow
deriving DecidableEq, Repr

/-- Table 12-2, reset cause. -/
inductive ResetCause where
  | power | pin | request
deriving DecidableEq, Repr

/-- The message in transmission on HTX (R163). -/
inductive Transmission where
  | announce (m : Message)
  | reply (m : Message)
  | report (source : Source) (m : Message)
deriving DecidableEq, Repr

/-- The LINK notice's state (R155). -/
structure LinkNotice where
  checkFailures : Word16
  framingFailures : Word16
  inboxOverruns : Word16
  lastDiscarded : Option Byte
  pending : Bool
deriving DecidableEq, Repr

/-- The host link (Table 10-1). -/
structure HostLink where
  strapCode : BitVec 2
  receiver : HostReceiver
  parser : Parser
  gapTimer : Timer
  inbox : List InboxEntry
  resetPending : Bool
  announcePending : Option ResetCause
  transmitter : Option Transmission
  credits : BitVec 8
  reportSeq : Word16
  notice : LinkNotice
deriving DecidableEq, Repr

/-- The RESET pin: high, or held low, with whether a power-on reset overlapped the low (R187). -/
inductive ResetPin where
  | high
  | low (powerOverlap : Bool)
deriving DecidableEq, Repr

/-! ### The whole part -/

/-- The state of the part. `pending` is the model's own: the commands not yet taken, oldest first. -/
structure State where
  nodes : Vector NodeEntry 64
  records : Vector TransferRecord 32
  slots : Vector ReceiveSlot 16
  lineA : LineBlock
  lineB : LineBlock
  reports : List Source
  link : HostLink
  resetPin : ResetPin
  pending : List Instr
deriving DecidableEq, Repr

/-- Nothing in the spec stops the part, so the model raises no fault: the type has no value. -/
inductive Fault where
deriving DecidableEq, Repr

/-- Why a command has no outcome. -/
inductive Refusal where
  /-- Raised by an arm of `exec` whose command has no meaning yet; safe, since nothing follows
  from it. No command of this model answers it. -/
  | notModelled (mnemonic : String)
deriving DecidableEq, Repr

/-! ### Values after a reset -/

/-- R3. -/
def NodeEntry.reset : NodeEntry where
  generation := 0
  state := .free
  line := .A
  address := 1
  identity := none
  pollClass := .fast
  missRun := 0
  putToggle := false
  acceptedToggle := false
  restartPending := false
  morePending := false
  removalPending := false
  assignHold := false
  noticePending := false
  changeCount := 0
  lastChange := .none
  goodReplies := 0
  misses := 0

/-- R26 gives the state and the stopped timer; the other fields are DESIGN CHOICE (log entry 7). -/
def TransferRecord.reset : TransferRecord where
  state := .free
  tag := 0
  line := .A
  target := none
  kind := .put
  priority := .normal
  payload := []
  retryBudget := 0
  attempts := 0
  deadline := none
  deadlineTimer := none
  result := none
  replyData := none
  nakReason := none

/-- R89. -/
def ReceiveSlot.reset : ReceiveSlot where
  state := .free
  line := .A
  handle := ⟨0, 0⟩
  address := 1
  payload := []

/-- R49. -/
def Scheduler.reset : Scheduler where
  running := false
  cycle := 0
  walk := 0
  interleaveCount := 0
  floor := .stopped
  turnTaken := false
  stepInProgress := false

/-- The defaults of Table 7-4. -/
def LineParams.default : LineParams where
  rateCode := 4
  replyTimeout := 4
  guardTime := 2
  gapLimit := 2
  missLimit := 3
  interleave := 2
  cycleFloor := 100
  faultHold := 10
  assignLow := 64
  assignHigh := 125

/-- R129. -/
def LineCounters.zero : LineCounters := ⟨0, 0, 0, 0, 0, 0, 0, 0, 0⟩

/-- R117. -/
def LineGuard.reset : LineGuard where
  lineState := .down
  startCause := .request
  stopAfterHold := false
  faultReason := .none
  contentionRun := 0
  holdTimer := none
  watch := .stopped
  recoveryCount := 0
  noticePending := false
  params := .default
  counters := .zero
  stuckRun := none

/-- R100. -/
def Discovery.reset : Discovery where
  active := false
  stopPending := .none
  stack := []
  bid := none
  assignment := none
  found := 0
  reassigned := 0
  clashes := 0
  unresponsive := 0
  lastResult := none
  noticePending := false

/-- R135. -/
def Receiver.reset : Receiver := ⟨.searchUnarmed, false⟩

/-- A line's blocks after a reset; the RX pin is an input and shows `rx` (R132). -/
def LineBlock.reset (rx : Level) : LineBlock where
  guard := .reset
  scheduler := .reset
  engine := .idle
  discovery := .reset
  receiver := .reset
  pins := ⟨.rest, false, rx⟩
  urgent := []
  normal := []

/-- R155. -/
def LinkNotice.zero : LinkNotice := ⟨0, 0, 0, none, false⟩

/-- The host link in a reset, before any ANNOUNCE (R167), with the strap code held. -/
def HostLink.reset (straps : BitVec 2) : HostLink where
  strapCode := straps
  receiver := .search
  parser := .hunt
  gapTimer := none
  inbox := []
  resetPending := false
  announcePending := none
  transmitter := none
  credits := 0
  reportSeq := 0
  notice := .zero

/-- Every block at its reset values; the RX pins, the RESET pin and the queue of commands are the
outside's and stand as given (R3, R26, R49, R72, R89, R100, R117, R132, R135, R145, R167). -/
def State.blocksReset (straps : BitVec 2) (rxA rxB : Level) (pin : ResetPin) (queue : List Instr) :
    State where
  nodes := Vector.replicate 64 .reset
  records := Vector.replicate 32 .reset
  slots := Vector.replicate 16 .reset
  lineA := .reset rxA
  lineB := .reset rxB
  reports := []
  link := .reset straps
  resetPin := pin
  pending := queue

/-- The part right after power-on reset: every block at its reset values and the ANNOUNCE with cause
POWER begun (R165). The strap code 0 and the recessive RX pins are DESIGN CHOICE (log entry 6). -/
def State.reset : State :=
  let s := State.blocksReset 0 .recessive .recessive .high []
  { s with link := { s.link with transmitter := some (.announce ⟨0x60, 0, announceBody 0⟩) } }

end Sys2Proof.Machine
end

