-- ==== Sys2Proof/Machine/Operands.lean ====
section
/-! DEFINITION. Operand forms: the codes of Table 12-2, handles as numbers, the fields of request
bodies (Table 12-3), and messages as bytes (Table 10-2). -/

namespace Sys2Proof.Machine

/-! ### Reply statuses (Table 11-2) -/

/-- Table 11-2. -/
inductive Status where
  | accepted | badLength | unknownKind | badValue | badAddress | wrongState | lineDown | tableFull
  | addressInUse | staleHandle | poolFull | tagInUse | nodeLost | unknownTag | inFlight
  | discoveryActive
deriving DecidableEq, Repr

/-- Table 12-2, status. -/
def Status.code : Status → Byte
  | .accepted => 0
  | .badLength => 1
  | .unknownKind => 2
  | .badValue => 3
  | .badAddress => 4
  | .wrongState => 5
  | .lineDown => 6
  | .tableFull => 7
  | .addressInUse => 8
  | .staleHandle => 9
  | .poolFull => 10
  | .tagInUse => 11
  | .nodeLost => 12
  | .unknownTag => 13
  | .inFlight => 14
  | .discoveryActive => 15

/-! ### Codes the part sends (Table 12-2) -/

/-- Table 12-2, line. -/
def lineCode : Line → Byte
  | .A => 0
  | .B => 1

/-- Table 12-2, poll class. -/
def PollClass.code : PollClass → Byte
  | .fast => 0
  | .steady => 1
  | .slow => 2

/-- Table 12-2, node state. -/
def NodeState.code : NodeState → Byte
  | .free => 0
  | .pending => 1
  | .active => 2
  | .silent => 3
  | .lost => 4
  | .parked => 5

/-- Table 12-2, change reason. -/
def ChangeReason.code : ChangeReason → Byte
  | .none => 0
  | .added => 1
  | .replied => 2
  | .missed => 3
  | .lost => 4
  | .removed => 5
  | .parked => 6
  | .unparked => 7
  | .lineStarted => 8
  | .assigned => 9
  | .reassigned => 10

/-- Table 12-2, transfer kind. -/
def TransferKind.code : TransferKind → Byte
  | .put => 0
  | .take => 1
  | .sendAll => 2

/-- Table 12-2, priority. -/
def Priority.code : Priority → Byte
  | .normal => 0
  | .urgent => 1

/-- Table 12-2, transfer state. -/
def RecordState.code : RecordState → Byte
  | .free => 0
  | .queued => 1
  | .inFlight => 2
  | .completed => 3

/-- Table 12-2, result. -/
def TransferResult.code : TransferResult → Byte
  | .done => 0
  | .rejected => 1
  | .busy => 2
  | .noAnswer => 3
  | .nodeLost => 4
  | .nodeGone => 5
  | .expired => 6
  | .cancelled => 7
  | .aborted => 8

/-- A result of 0xFF means that the record is not COMPLETED (R185). -/
def resultCode : Option TransferResult → Byte
  | none => 0xFF
  | some r => r.code

/-- Table 12-2, NAK reason, 0 when absent. -/
def nakCode : Option NakReason → Byte
  | none => 0
  | some .busy => 1
  | some .refused => 2

/-- Table 12-2, line state. -/
def LineState.code : LineState → Byte
  | .down => 0
  | .starting => 1
  | .running => 2
  | .stopping => 3
  | .faulted => 4
  | .recovering => 5

/-- Table 12-2, fault reason. -/
def FaultReason.code : FaultReason → Byte
  | .none => 0
  | .stuck => 1
  | .contention => 2
  | .startNotQuiet => 3
  | .recoveryNotQuiet => 4

/-- Table 12-2, stop reason. -/
def StopReason.code : StopReason → Byte
  | .done => 0
  | .cancelled => 1
  | .tableFull => 2
  | .addressPoolEmpty => 3
  | .lineFault => 4
  | .lineStopped => 5

/-- Table 12-2, reset cause. -/
def ResetCause.code : ResetCause → Byte
  | .power => 0
  | .pin => 1
  | .request => 2

/-! ### Codes the part reads; a code Table 12-2 does not define has no value (R185) -/

/-- Table 12-2, line. -/
def decodeLine (b : Byte) : Option Line :=
  match b.toNat with
  | 0 => some .A
  | 1 => some .B
  | _ => none

/-- Table 12-2, poll class. -/
def decodeClass (b : Byte) : Option PollClass :=
  match b.toNat with
  | 0 => some .fast
  | 1 => some .steady
  | 2 => some .slow
  | _ => none

/-- Table 12-2, transfer kind. -/
def decodeKind (b : Byte) : Option TransferKind :=
  match b.toNat with
  | 0 => some .put
  | 1 => some .take
  | 2 => some .sendAll
  | _ => none

/-- Table 12-2, priority. -/
def decodePriority (b : Byte) : Option Priority :=
  match b.toNat with
  | 0 => some .normal
  | 1 => some .urgent
  | _ => none

/-- Table 12-2, yes/no. -/
def decodeYesNo (b : Byte) : Option Bool :=
  match b.toNat with
  | 0 => some false
  | 1 => some true
  | _ => none

/-- Table 12-2, SET_NODE action. -/
inductive NodeAction where
  | none | park | unpark
deriving DecidableEq, Repr

/-- Table 12-2, SET_NODE action. -/
def decodeAction (b : Byte) : Option NodeAction :=
  match b.toNat with
  | 0 => some .none
  | 1 => some .park
  | 2 => some .unpark
  | _ => Option.none

/-- The class field of SET_NODE: 0xFF is no change (Table 12-2). -/
def decodeClassChange (b : Byte) : Option (Option PollClass) :=
  if b = 0xFF then some none else (decodeClass b).map some

/-! ### Handles (R2, R185) -/

/-- A handle's number: the index plus 64 times the generation (R2). -/
def Handle.number (h : Handle) : Word16 :=
  BitVec.ofNat 16 (h.index.val + 64 * h.generation.toNat)

/-- The handle a two-byte field names; a value above 1023 names none (R2, R169). -/
def decodeHandle (w : Word16) : Option Handle :=
  if w.toNat < 1024 then
    some ⟨⟨w.toNat % 64, Nat.mod_lt _ (by decide)⟩, BitVec.ofNat 4 (w.toNat / 64)⟩
  else none

/-- The target field of a COMPLETION: a handle, or 0x8000 plus the line code (R185). -/
def targetField (target : Option Handle) (l : Line) : Word16 :=
  match target with
  | some h => h.number
  | none => 0x8000 + (lineCode l).zeroExtend 16

/-- An optional identity: a presence byte, then four bytes that are 0 when it is absent (R185). -/
def identityField : Option Identity → List Byte
  | none => 0 :: le32 0
  | some i => 1 :: le32 i

/-! ### Line configuration (Table 7-4, Table 12-3) -/

/-- The eleven configuration bytes (Table 12-4). -/
def LineParams.bytes (p : LineParams) : List Byte :=
  [p.rateCode, p.replyTimeout, p.guardTime, p.gapLimit, p.missLimit, p.interleave] ++
    le16 p.cycleFloor ++ [p.faultHold, p.assignLow, p.assignHigh]

/-- A byte lies in a range of Table 7-4, ends included. -/
def within (b : Byte) (low high : Nat) : Bool := low ≤ b.toNat && b.toNat ≤ high

/-- Every parameter is in its range and assign low is not above assign high (R128). -/
def LineParams.inRange (p : LineParams) : Bool :=
  within p.rateCode 0 7 && within p.replyTimeout 1 255 && within p.guardTime 1 15 &&
    within p.gapLimit 1 4 && within p.missLimit 1 15 && within p.interleave 1 8 &&
    within p.faultHold 1 255 && within p.assignLow 1 125 && within p.assignHigh 1 125 &&
    p.assignLow.toNat ≤ p.assignHigh.toNat

/-! ### SUBMIT's fields (R182) -/

/-- The fields of a SUBMIT that has passed its second stage. -/
structure SubmitFields where
  line : Line
  tag : Word16
  kind : TransferKind
  priority : Priority
  /-- none for SEND_ALL; else the handle field, not yet judged (R169) -/
  target : Option Word16
  retryBudget : Nat
  deadline : Option Word16
  payload : List Byte
deriving DecidableEq, Repr

/-- Check 1 of R182 on the fields of a SUBMIT body of good length. -/
def decodeSubmit (line kind priority budget : Byte) (tag target deadline : Word16)
    (payload : List Byte) : Option SubmitFields :=
  match decodeLine line, decodeKind kind, decodePriority priority with
  | some l, some k, some p =>
    let given : Option Word16 := if target = 0xFFFF then none else some target
    if tag = 0 then none
    else if 7 < budget.toNat then none
    else if given.isSome && k == .sendAll then none
    else if given.isNone && k != .sendAll then none
    else if payload.isEmpty && k != .take then none
    else some ⟨l, tag, k, p, given, budget.toNat, if deadline = 0 then none else some deadline,
      payload⟩
  | _, _, _ => none

/-! ### Messages as bytes (Table 10-2) -/

/-- The bytes of a message on HTX: sync, length, kind, sequence, body and check. -/
def Message.frame (m : Message) : List Byte :=
  let covered := BitVec.ofNat 8 (2 + m.body.length) :: m.kind :: m.seq :: m.body
  0xC3 :: covered ++ le16 (crc covered)

/-- The bits of a byte on HTX in the order they are sent (R156); true is high. -/
def byteBits (b : Byte) : List Bool := (List.range 10).map fun n => (byteWord b).getLsbD n

/-- The bits of a whole message on HTX, its bytes back to back (R156). -/
def Message.txBits (m : Message) : List Bool := (m.frame.map byteBits).flatten

/-- The message in transmission (R163). -/
def Transmission.message : Transmission → Message
  | .announce m => m
  | .reply m => m
  | .report _ m => m

/-- What HTX carries: the bits of the message in transmission, at the strap code's rate; with none it
rests high (R156). -/
def HostLink.htxBits (k : HostLink) : List Bool :=
  match k.transmitter with
  | some t => t.message.txBits
  | none => []

/-- Each reply's kind is its request's kind plus 0x80 (R162). -/
def replyKind (kind : Byte) : Byte := kind + 0x80

/-- A reply of a refused request: its status and no body (R168). -/
def refusal (st : Status) : List Byte := [st.code]

/-- The reply of an accepted request: status ACCEPTED, then the body (R185). -/
def acceptance (body : List Byte) : List Byte := Status.accepted.code :: body

end Sys2Proof.Machine
end

