-- ==== Sys2Proof/Machine/Flags.lean ====
section
/-! DEFINITION. Line frames: head and control characters with their flags (Table 12-7), the frames
the part sends (Table 4-2) and the judging of replies (Tables 4-3 and 4-5). -/

namespace Sys2Proof.Machine

/-! ### Master frames -/

/-- The address of a master frame's head (Table 4-2): 0 is broadcast, 126 the join address. -/
def MasterFrame.address : MasterFrame → Address
  | .poll a _ _ _ => a
  | .put a _ _ _ => a
  | .take a _ _ => a
  | .sendAll _ => 0
  | .invite _ _ => 126
  | .assign _ _ => 126

/-- The head character: direction master-to-node in bit 7, the address below (Table 12-7). -/
def MasterFrame.head (f : MasterFrame) : Byte := 0x80 ||| f.address.zeroExtend 8

/-- The kind code of control bits 0–3 (Table 12-7). -/
def MasterFrame.kindCode : MasterFrame → Byte
  | .poll .. => 1
  | .put .. => 2
  | .take .. => 3
  | .sendAll .. => 4
  | .invite .. => 5
  | .assign .. => 6

/-- A flag in its bit of the control character (Table 12-7). -/
def flagBit (bit : Nat) (b : Bool) : Byte := if b then 1 <<< bit else 0

/-- The flags of the control character; every flag Table 4-2 does not list for the kind is 0. -/
def MasterFrame.flags : MasterFrame → Byte
  | .poll _ ackToggle hold restart =>
    flagBit 5 ackToggle ||| flagBit 6 hold ||| flagBit 7 restart
  | .put _ toggle restart _ => flagBit 4 toggle ||| flagBit 7 restart
  | .take _ restart _ => flagBit 7 restart
  | .sendAll _ => 0
  | .invite _ _ => 0
  | .assign _ _ => 0

/-- The control character (R68). -/
def MasterFrame.control (f : MasterFrame) : Byte := f.kindCode ||| f.flags

/-- A prefix with every bit beyond its length 0 (R186). -/
def maskTo (length : Nat) (value : BitVec 32) : BitVec 32 :=
  (value >>> (32 - length)) <<< (32 - length)

/-- The payload (Table 4-2); an ASSIGN's address byte follows its identity (R186). -/
def MasterFrame.payload : MasterFrame → List Byte
  | .poll .. => []
  | .put _ _ _ p => p
  | .take _ _ p => p
  | .sendAll p => p
  | .invite n v => BitVec.ofNat 8 n :: le32 (maskTo n v)
  | .assign i a => le32 i ++ [a.zeroExtend 8]

/-- Head, control, length and payload: what the check covers (R70). -/
def MasterFrame.covered (f : MasterFrame) : List Byte :=
  f.head :: f.control :: BitVec.ofNat 8 f.payload.length :: f.payload

/-- The data bytes of the frame's characters, the check last, low byte first (R66). -/
def MasterFrame.bytes (f : MasterFrame) : List Byte := f.covered ++ le16 (crc f.covered)

/-- The frame's characters with their mark bits: 1 on the head alone (R66). -/
def MasterFrame.characters (f : MasterFrame) : List (Byte × Bool) :=
  (f.head, true) :: f.bytes.tail.map fun b => (b, false)

/-- The 11 bits of a character on TX: start, data least significant first, mark, stop (R133). -/
def characterBits (c : Byte × Bool) : List Bool :=
  [false, c.1.getLsbD 0, c.1.getLsbD 1, c.1.getLsbD 2, c.1.getLsbD 3, c.1.getLsbD 4,
    c.1.getLsbD 5, c.1.getLsbD 6, c.1.getLsbD 7, c.2, true]

/-- The bits of a whole frame on TX, back to back (R66, R133); true is recessive. -/
def MasterFrame.txBits (f : MasterFrame) : List Bool :=
  (f.characters.map characterBits).flatten

/-- The restart flag the frame carries (R15). -/
def MasterFrame.restart : MasterFrame → Bool
  | .poll _ _ _ r => r
  | .put _ _ r _ => r
  | .take _ r _ => r
  | .sendAll _ => false
  | .invite _ _ => false
  | .assign _ _ => false

/-- Whether the frame calls for no reply (R75). -/
def MasterFrame.isSendAll : MasterFrame → Bool
  | .sendAll _ => true
  | _ => false

/-- Whether the frame is a PUT (R11). -/
def MasterFrame.isPut : MasterFrame → Bool
  | .put .. => true
  | _ => false

/-! ### Received characters (R138) -/

/-- What the receiver makes of a completed character (Table of R138). -/
inductive CharacterKind where
  | good | framingError | breakCharacter
deriving DecidableEq, Repr

/-- A completed character as the receiver hands it over (R138). -/
structure ReceivedCharacter where
  data : Byte
  mark : Bool
  kind : CharacterKind
  noisy : Bool
deriving DecidableEq, Repr

/-- The character decided from 8 data bits, the mark and the stop (bits 0–7, 8 and 9), each by its
majority; noisy if any bit's samples disagreed, the start's included (R137, R138). -/
def decideCharacter (startNoisy : Bool) (bits : Samples 10) : ReceivedCharacter :=
  let v := bits.value
  let data := v.extractLsb' 0 8
  let mark := v.getLsbD 8
  { data := data
    mark := mark
    kind :=
      if v.getLsbD 9 then .good
      else if data = 0 && !mark then .breakCharacter
      else .framingError
    noisy := startNoisy || bits.disagree }

/-! ### Judging a reply (R79) -/

/-- The source Table 4-5 expects. -/
def expectedSource : MasterFrame → Option Address
  | .poll a _ _ _ => some a
  | .put a _ _ _ => some a
  | .take a _ _ => some a
  | .sendAll _ => none
  | .invite _ _ => some 126
  | .assign _ a => some a

/-- The contents of a reply by its control character and payload, when the kind is one of Table 4-3
and the length and NAK reason fit it (R69, R186). -/
def decodeReply (control : Byte) (payload : List Byte) : Option NodeReply :=
  match (control &&& 0x0F).toNat, payload with
  | 8, [] => some .ack
  | 9, [r] =>
    match r.toNat with
    | 1 => some (.nak .busy)
    | 2 => some (.nak .refused)
    | _ => none
  | 10, b :: rest =>
    if rest.length < 48 then some (.data (control.getLsbD 4) (control.getLsbD 6) (b :: rest))
    else none
  | 11, [] => some (.empty (control.getLsbD 6))
  | 12, [b0, b1, b2, b3] => some (.bid (word32 b0 b1 b2 b3))
  | _, _ => none

/-- The kinds Table 4-5 takes as REPLY. -/
def replyAllowed : MasterFrame → NodeReply → Bool
  | .poll .., .data .. => true
  | .poll .., .empty _ => true
  | .poll .., .nak .busy => true
  | .put .., .ack => true
  | .put .., .nak _ => true
  | .take .., .data .. => true
  | .take .., .nak _ => true
  | .invite .., .bid _ => true
  | .assign .., .ack => true
  | _, _ => false

/-- The outcome of a complete reply `got` (head, control, length, payload, two check characters):
REPLY when check, direction, source, kind and length are all good, else BAD_REPLY (R79). -/
def judgeReply (f : MasterFrame) (got : List Byte) : ExchangeOutcome :=
  match got with
  | head :: control :: length :: rest =>
    let payload := rest.take length.toNat
    let check := rest.drop length.toNat
    match decodeReply control payload with
    | some contents =>
      if check = le16 (crc (head :: control :: length :: payload)) &&
          !head.getLsbD 7 && some (head.extractLsb' 0 7) == expectedSource f &&
          replyAllowed f contents then
        .reply contents
      else .badReply
    | none => .badReply
  | _ => .badReply

end Sys2Proof.Machine
end

