-- ==== Sys2Proof/Machine/Timing.lean ====
section
/-! DEFINITION. What each timer is set to, in units of 1/25 of a clock of 29.4912 MHz (R187). -/

namespace Sys2Proof.Machine

/-- Clocks for one sample at each rate code: 384 at 9600 bit/s, 4 at 921600 bit/s (Table 8-2, R187). -/
def clocksPerSample (rateCode : Byte) : Nat :=
  match rateCode.toNat with
  | 0 => 384
  | 1 => 192
  | 2 => 96
  | 3 => 64
  | 4 => 32
  | 5 => 16
  | 6 => 8
  | _ => 4

/-- A character time is 11 bit times of 8 samples (R134, R135). -/
def charTime (p : LineParams) : Duration := 88 * clocksPerSample p.rateCode * 25

/-- `n` character times of the line. -/
def charTimes (p : LineParams) (n : Nat) : Duration := n * charTime p

/-- 1 ms is 29491.2 clocks. -/
def millisecond : Duration := 737280

/-- The cycle floor in units of 0.1 ms, or one character time when that is longer (R60). -/
def floorTime (p : LineParams) : Duration := max (p.cycleFloor.toNat * 73728) (charTime p)

/-- The fault hold, in units of 10 ms (R122). -/
def holdTime (p : LineParams) : Duration := p.faultHold.toNat * (10 * millisecond)

/-- The wake break lasts 2 character times (R119). -/
def wakeBreakTime (p : LineParams) : Duration := charTimes p 2

/-- The quiet and the recovery watch last 8 character times (R119, R124). -/
def quietTime (p : LineParams) : Duration := charTimes p 8

/-- A dominant run faults the line when it passes 4 character times (R120). -/
def stuckTime (p : LineParams) : Duration := charTimes p 4

/-- Clocks for one sample of HRX, an eighth of a bit time: 115200 to 921600 bit/s (R156, R157, R187). -/
def hostClocksPerSample (straps : BitVec 2) : Nat :=
  match straps.toNat with
  | 0 => 32
  | 1 => 16
  | 2 => 8
  | _ => 4

/-- The host link's rate in bit/s (R156): the clock over the 8 samples of a bit. -/
def hostRate (straps : BitVec 2) : Nat := 29491200 / (8 * hostClocksPerSample straps)

/-- A byte of the host link is 10 bit times (R156). -/
def hostByteTime (straps : BitVec 2) : Duration := 80 * hostClocksPerSample straps * 25

/-- The host link's gap limit is 10 ms at every rate (R159). -/
def hostGapTime : Duration := 10 * millisecond

end Sys2Proof.Machine
end

