-- ==== Sys2Proof/Machine/Ops.lean ====
section
/-! DEFINITION. The shared operations over the part's state: reading and writing its tables, raising
notices, completing records, allocating entries, beginning and ending an exchange. -/

namespace Sys2Proof.Machine

/-! ### Reading and writing the tables -/

/-- The node entry at an index. -/
def State.node (s : State) (i : EntryIndex) : NodeEntry := s.nodes.get i

/-- The transfer record at an index. -/
def State.record (s : State) (r : RecordIndex) : TransferRecord := s.records.get r

/-- The receive slot at an index. -/
def State.slot (s : State) (k : SlotIndex) : ReceiveSlot := s.slots.get k

/-- The blocks of a line. -/
def State.line (s : State) (l : Line) : LineBlock :=
  match l with
  | .A => s.lineA
  | .B => s.lineB

/-- Write a node entry. -/
def State.setNode (s : State) (i : EntryIndex) (e : NodeEntry) : State :=
  { s with nodes := s.nodes.set i.val e i.isLt }

/-- Write a transfer record. -/
def State.setRecord (s : State) (r : RecordIndex) (x : TransferRecord) : State :=
  { s with records := s.records.set r.val x r.isLt }

/-- Write a receive slot. -/
def State.setSlot (s : State) (k : SlotIndex) (x : ReceiveSlot) : State :=
  { s with slots := s.slots.set k.val x k.isLt }

/-- Write the blocks of a line. -/
def State.setLine (s : State) (l : Line) (b : LineBlock) : State :=
  match l with
  | .A => { s with lineA := b }
  | .B => { s with lineB := b }

/-- Change the blocks of a line. -/
def State.updLine (s : State) (l : Line) (f : LineBlock → LineBlock) : State :=
  s.setLine l (f (s.line l))

/-- Change a line's guard. -/
def State.updGuard (s : State) (l : Line) (f : LineGuard → LineGuard) : State :=
  s.updLine l fun b => { b with guard := f b.guard }

/-- Change a line's counters (R129). -/
def State.updCounters (s : State) (l : Line) (f : LineCounters → LineCounters) : State :=
  s.updGuard l fun g => { g with counters := f g.counters }

/-- Change a line's scheduler. -/
def State.updScheduler (s : State) (l : Line) (f : Scheduler → Scheduler) : State :=
  s.updLine l fun b => { b with scheduler := f b.scheduler }

/-- Change a line's discovery record. -/
def State.updDiscovery (s : State) (l : Line) (f : Discovery → Discovery) : State :=
  s.updLine l fun b => { b with discovery := f b.discovery }

/-- Change a line's receiver. -/
def State.updReceiver (s : State) (l : Line) (f : Receiver → Receiver) : State :=
  s.updLine l fun b => { b with receiver := f b.receiver }

/-- Write a line's engine. -/
def State.setEngine (s : State) (l : Line) (e : Engine) : State :=
  s.updLine l fun b => { b with engine := e }

/-- Change the host link. -/
def State.updLink (s : State) (f : HostLink → HostLink) : State := { s with link := f s.link }

/-- The 64 indexes in increasing order (R53). -/
def entryIndexes : List EntryIndex := List.finRange 64

/-- The 32 record indexes in increasing order. -/
def recordIndexes : List RecordIndex := List.finRange 32

/-- The 16 slot numbers in increasing order. -/
def slotIndexes : List SlotIndex := List.finRange 16

/-! ### Report queue and notices -/

/-- A source enters the queue at the tail, unless it has an entry there (R144, R146). -/
def enqueue (src : Source) (s : State) : State :=
  if src ∈ s.reports then s else { s with reports := s.reports ++ [src] }

/-- R24. -/
def raiseNodeNotice (i : EntryIndex) (s : State) : State :=
  let e := s.node i
  enqueue (.node i)
    (s.setNode i { e with noticePending := true, changeCount := satInc e.changeCount })

/-- R131. -/
def raiseLineNotice (l : Line) (s : State) : State :=
  enqueue (.line l) (s.updGuard l fun g => { g with noticePending := true })

/-- R115. -/
def raiseDiscoveryNotice (l : Line) (s : State) : State :=
  enqueue (.discovery l) (s.updDiscovery l fun d => { d with noticePending := true })

/-- R155: a failure is counted by `f` and the LINK notice raised. -/
def raiseLinkNotice (f : LinkNotice → LinkNotice) (s : State) : State :=
  enqueue .link (s.updLink fun k => { k with notice := { f k.notice with pending := true } })

/-! ### Node entries -/

/-- A held entry is in any state other than FREE (R1). -/
def NodeEntry.held (e : NodeEntry) : Bool := e.state != .free

/-- R4. -/
def NodeEntry.allocatable (e : NodeEntry) : Bool :=
  e.state == .free && !e.noticePending && !e.assignHold

/-- Held, or a FREE entry with assign hold: its address and identity count as in use (R6, R7). -/
def NodeEntry.occupies (e : NodeEntry) (l : Line) : Bool :=
  e.line == l && (e.held || e.assignHold)

/-- Restart pending is set, and the toggles with it (R15). -/
def NodeEntry.setRestart (e : NodeEntry) : NodeEntry :=
  { e with restartPending := true, putToggle := false, acceptedToggle := true }

/-- The entry's present handle (R2). -/
def State.handleOf (s : State) (i : EntryIndex) : Handle := ⟨i, (s.node i).generation⟩

/-- The allocatable entry of lowest index (R4). -/
def firstAllocatable (s : State) : Option EntryIndex :=
  entryIndexes.find? fun i => (s.node i).allocatable

/-- The address is in use on the line (R6). -/
def addressInUse (l : Line) (a : Address) (s : State) : Bool :=
  entryIndexes.any fun i => (s.node i).occupies l && (s.node i).address == a

/-- The identity is in use on the line (R7). -/
def identityInUse (l : Line) (x : Identity) (s : State) : Bool :=
  entryIndexes.any fun i => (s.node i).occupies l && (s.node i).identity == some x

/-- A handle that names no current tenant (R2). -/
def isStale (h : Handle) (s : State) : Bool :=
  let e := s.node h.index
  e.generation != h.generation || !e.held || e.removalPending

/-- The handle of a request's field, if it is not stale (R2, R169). -/
def lookupHandle (w : Word16) (s : State) : Option Handle :=
  (decodeHandle w).filter fun h => !isStale h s

/-! ### Transfer records -/

/-- The record is aimed at the entry (R39, R40). -/
def TransferRecord.aimedAt (x : TransferRecord) (i : EntryIndex) : Bool :=
  match x.target with
  | some h => h.index == i
  | none => false

/-- A record's end: result, COMPLETED, its timer stopped, its report enqueued (R41, R45). -/
def completeRecord (r : RecordIndex) (result : TransferResult) (s : State) : State :=
  enqueue (.completion r)
    (s.setRecord r
      { s.record r with state := .completed, result := some result, deadlineTimer := none })

/-- Every QUEUED record of the line that `p` chooses leaves its queue and completes, URGENT before
NORMAL, head to tail (R28, R45); answers how many there were. -/
def completeQueued (l : Line) (p : TransferRecord → Bool) (result : TransferResult) (s : State) :
    State × Nat :=
  let b := s.line l
  let chosen := (b.urgent ++ b.normal).filter fun r => p (s.record r)
  let keep := fun q : List RecordIndex => q.filter fun r => !p (s.record r)
  let s1 := s.updLine l fun b => { b with urgent := keep b.urgent, normal := keep b.normal }
  (chosen.foldl (fun t r => completeRecord r result t) s1, chosen.length)

/-- The record holding a tag (R27). -/
def holderOf (tag : Word16) (s : State) : Option RecordIndex :=
  recordIndexes.find? fun r => (s.record r).state != .free && (s.record r).tag == tag

/-- A record joins the tail of the queue of its line and priority (R28). -/
def queueTail (r : RecordIndex) (s : State) : State :=
  let x := s.record r
  s.updLine x.line fun b =>
    match x.priority with
    | .urgent => { b with urgent := b.urgent ++ [r] }
    | .normal => { b with normal := b.normal ++ [r] }

/-- A record rejoins its queue at the head (R28, R37). -/
def queueHead (r : RecordIndex) (s : State) : State :=
  let x := s.record r
  s.updLine x.line fun b =>
    match x.priority with
    | .urgent => { b with urgent := r :: b.urgent }
    | .normal => { b with normal := r :: b.normal }

/-- The queue of a line and priority. -/
def LineBlock.queue (b : LineBlock) : Priority → List RecordIndex
  | .urgent => b.urgent
  | .normal => b.normal

/-- A record's place in its queue, counting the head as 1; 0 when it is in none (R47, R185). -/
def queuePosition (r : RecordIndex) (s : State) : Nat :=
  let x := s.record r
  match ((s.line x.line).queue x.priority).findIdx? (· == r) with
  | some k => k + 1
  | none => 0

/-! ### Exchanges -/

/-- The exchange an engine holds (R72). -/
def Engine.exchange : Engine → Option Exchange
  | .idle => none
  | .sending x _ _ => some x
  | .awaiting x _ => some x
  | .receiving x _ _ => some x
  | .guard x _ _ => some x

/-- The exchange whose outcome is not yet fixed (R85, R86). -/
def Engine.unfixed : Engine → Option Exchange
  | .idle => none
  | .sending x _ _ => some x
  | .awaiting x _ => some x
  | .receiving x _ _ => some x
  | .guard _ _ _ => none

/-- The entry an exchange is in flight to (R8, R23). -/
def Carried.target : Carried → Option Handle
  | .poll h _ => some h
  | .transfer _ t => t
  | .invite => none
  | .assign t => t

/-- An exchange of line `l` is in flight to the entry. -/
def LineBlock.inFlightTo (b : LineBlock) (i : EntryIndex) : Bool :=
  match b.engine.exchange with
  | some x =>
    match x.carried.target with
    | some h => h.index == i
    | none => false
  | none => false

/-- An exchange is in flight to the entry (R8). -/
def inFlightTo (i : EntryIndex) (s : State) : Bool :=
  s.lineA.inFlightTo i || s.lineB.inFlightTo i

/-- The line is RUNNING or STOPPING, where stuck-dominant is watched for (R120). -/
def LineState.watched : LineState → Bool
  | .running => true
  | .stopping => true
  | _ => false

/-- A dominant run begins where one is watched for (R120). -/
def LineBlock.dominantRun (b : LineBlock) : Timer :=
  if b.guard.lineState.watched && b.pins.rx == .dominant then some (stuckTime b.guard.params)
  else none

/-- An exchange is handed over: SENDING, DE on, the frame on TX, exchanges started + 1 (R63, R73);
switching DE on ends a dominant run (R120). -/
def beginExchange (l : Line) (x : Exchange) (s : State) : State :=
  s.updLine l fun b =>
    { b with
      engine := .sending x 0 false
      pins := { b.pins with tx := .frame, de := true }
      guard := { b.guard with
        stuckRun := none
        counters := { b.guard.counters with
          exchangesStarted := satInc b.guard.counters.exchangesStarted } } }

/-- DE is released and TX rests (R117, R132); a level already dominant begins a run (R120). -/
def releaseDriver (l : Line) (s : State) : State :=
  s.updLine l fun b =>
    if b.pins.de then
      { b with
        pins := { b.pins with tx := .rest, de := false }
        guard := { b.guard with stuckRun := b.dominantRun } }
    else b

/-- An entry with removal pending goes FREE at the end of its exchange, with a notice (R18). -/
def completeRemoval (i : EntryIndex) (s : State) : State :=
  let e := s.node i
  if e.removalPending then
    raiseNodeNotice i
      (s.setNode i { e with state := .free, removalPending := false, lastChange := .removed })
  else s

/-- The deferred removal of an exchange's target, if there is one (R18, R84). -/
def finishTarget (c : Carried) (s : State) : State :=
  match c.target with
  | some h => completeRemoval h.index s
  | none => s

/-- Whether an exchange's target is waiting to be removed at the exchange's end (R111). -/
def targetLeaving (c : Carried) (s : State) : Bool :=
  match c.target with
  | some h => (s.node h.index).removalPending
  | none => false

/-! ### Going DOWN -/

/-- The guard, pins and scheduler of a line that goes DOWN: timers stopped, DE released, fault
reason NONE, stop after hold no, scheduler stopped (R62, R125, R126, R127). -/
def LineBlock.goDown (b : LineBlock) : LineBlock :=
  { b with
    guard := { b.guard with
      lineState := .down
      stopAfterHold := false
      faultReason := .none
      holdTimer := none
      watch := .stopped
      stuckRun := none }
    pins := { b.pins with tx := .rest, de := false }
    scheduler := { b.scheduler with running := false, floor := .stopped, stepInProgress := false } }

end Sys2Proof.Machine
end

