-- ==== Sys2Proof/Machine/NodeTable.lean ====
section
/-! DEFINITION. What outcomes and requests do to node entries and to the receive store (01, 05). -/

namespace Sys2Proof.Machine

/-- What an outcome makes of an entry: the entry, whether a notice is raised, whether it went LOST. -/
structure EntryEffect where
  entry : NodeEntry
  notice : Bool
  lost : Bool
deriving DecidableEq, Repr

/-- A change of state from the line side, with its reason (R24). -/
def NodeEntry.change (e : NodeEntry) (st : NodeState) (why : ChangeReason) : NodeEntry :=
  { e with state := st, lastChange := why }

/-- A valid reply (R9, R12); `restart` is the flag of the frame that drew it. -/
def validReply (restart : Bool) (e : NodeEntry) : EntryEffect :=
  let counted := { e with goodReplies := satInc e.goodReplies }
  let answered := { counted with
    missRun := 0
    restartPending := if restart then false else e.restartPending }
  match e.state with
  | .free => ⟨e, false, false⟩
  | .parked => ⟨counted, false, false⟩
  | .active => ⟨answered, false, false⟩
  | .pending => ⟨answered.change .active .replied, true, false⟩
  | .silent => ⟨answered.change .active .replied, true, false⟩
  | .lost => ⟨answered.change .active .replied, true, false⟩

/-- The entry of a node taken as lost (R10). -/
def NodeEntry.goLost (e : NodeEntry) (limit : Nat) : NodeEntry :=
  ({ e with missRun := limit }.setRestart).change .lost .lost

/-- A miss, judged against the line's miss limit (R10, R12). -/
def miss (limit : Nat) (e : NodeEntry) : EntryEffect :=
  let counted := { e with misses := satInc e.misses }
  let below := e.missRun + 1 < limit
  let more := { counted with missRun := e.missRun + 1 }
  match e.state with
  | .free => ⟨e, false, false⟩
  | .parked => ⟨counted, false, false⟩
  | .lost => ⟨counted, false, false⟩
  | .pending => if below then ⟨more, false, false⟩ else ⟨counted.goLost limit, true, true⟩
  | .silent => if below then ⟨more, false, false⟩ else ⟨counted.goLost limit, true, true⟩
  | .active =>
    if below then ⟨more.change .silent .missed, true, false⟩
    else ⟨counted.goLost limit, true, true⟩

/-- Restart pending was set while a frame built without restart was in flight (R15). -/
def restartedInFlight (f : MasterFrame) (before : NodeEntry) : Bool :=
  !f.restart && before.restartPending

/-- The sequence effects of a valid reply: an ACK to a PUT flips the put toggle (R13), the more flag
of a DATA or EMPTY sets more pending (R16). -/
def sequenceEffect (f : MasterFrame) (before : NodeEntry) (c : NodeReply) (e : NodeEntry) :
    NodeEntry :=
  match f, c with
  | .put .., .ack => if restartedInFlight f before then e else { e with putToggle := !e.putToggle }
  | _, .data _ true _ => { e with morePending := true }
  | _, .empty true => { e with morePending := true }
  | _, _ => e

/-- The outcome of a POLL, PUT or TAKE at its target entry (R8 to R13, R16). -/
def entryOutcome (f : MasterFrame) (o : ExchangeOutcome) (limit : Nat) (e : NodeEntry) :
    EntryEffect :=
  if e.removalPending || !e.held then ⟨e, false, false⟩
  else
    match o with
    | .reply c =>
      let r := validReply f.restart e
      { r with entry := sequenceEffect f e c r.entry }
    | .noReply => miss limit e
    | .badReply => miss limit e
    | .aborted => ⟨if f.isPut then e.setRestart else e, false, false⟩
    | .contention => ⟨e, false, false⟩
    | .lineFault => ⟨e, false, false⟩
    | .sent => ⟨e, false, false⟩

/-- The node table is told an outcome (R82); answers whether it made the entry LOST. -/
def tellNode (i : EntryIndex) (f : MasterFrame) (o : ExchangeOutcome) (l : Line) (s : State) :
    State × Bool :=
  let r := entryOutcome f o (s.line l).guard.params.missLimit.toNat (s.node i)
  let s1 := s.setNode i r.entry
  (if r.notice then raiseNodeNotice i s1 else s1, r.lost)

/-! ### The receive store -/

/-- The FREE slot of lowest number (R90). -/
def firstFreeSlot (s : State) : Option SlotIndex :=
  slotIndexes.find? fun k => (s.slot k).state == .free

/-- A slot is reserved for a POLL to the entry (R90). -/
def reserveSlot (k : SlotIndex) (l : Line) (h : Handle) (s : State) : State :=
  s.setSlot k { s.slot k with
    state := .reserved, line := l, handle := h, address := (s.node h.index).address }

/-- A reservation ends with nothing stored (R95, R96, R97). -/
def freeSlot (slot : Option SlotIndex) (s : State) : State :=
  match slot with
  | some k => s.setSlot k { s.slot k with state := .free }
  | none => s

/-- The data waits at the node (R15, R94). -/
def keepAtNode (i : EntryIndex) (s : State) : State :=
  s.setNode i { s.node i with morePending := true }

/-- New data is stored (R93). -/
def storeData (k : SlotIndex) (i : EntryIndex) (toggle : Bool) (payload : List Byte) (s : State) :
    State :=
  let s1 := s.setSlot k { s.slot k with state := .filled, payload := payload }
  enqueue (.data k) (s1.setNode i { s1.node i with acceptedToggle := toggle })

/-- The receive store is told a POLL's outcome (R92 to R97, Table 5-3); `before` is the entry as it
stood when the outcome was fixed. -/
def tellStore (l : Line) (i : EntryIndex) (slot : Option SlotIndex) (f : MasterFrame)
    (o : ExchangeOutcome) (before : NodeEntry) (s : State) : State :=
  if before.removalPending then freeSlot slot s
  else
    match o with
    | .reply (.data toggle _ payload) =>
      if restartedInFlight f before then keepAtNode i (freeSlot slot s)
      else if toggle = before.acceptedToggle then
        (freeSlot slot s).updCounters l fun c => { c with duplicates := satInc c.duplicates }
      else
        match slot with
        | some k => storeData k i toggle payload s
        | none => keepAtNode i s
    | _ => freeSlot slot s

/-! ### Requests on entries -/

/-- The entry ADD_NODE fills (R5). -/
def NodeEntry.added (e : NodeEntry) (l : Line) (a : Address) (c : PollClass)
    (x : Option Identity) : NodeEntry where
  generation := e.generation + 1
  state := .pending
  line := l
  address := a
  identity := x
  pollClass := c
  missRun := 0
  putToggle := false
  acceptedToggle := true
  restartPending := true
  morePending := false
  removalPending := false
  assignHold := false
  noticePending := e.noticePending
  changeCount := 0
  lastChange := .added
  goodReplies := 0
  misses := 0

/-- The entry START_LINE resets (R20). -/
def NodeEntry.lineStarted (e : NodeEntry) : NodeEntry :=
  { e.setRestart with state := .pending, missRun := 0, morePending := false, lastChange := .lineStarted }

/-- The entry is one START_LINE resets (R20). -/
def NodeEntry.startsWith (e : NodeEntry) (l : Line) : Bool :=
  e.line == l && e.held && e.state != .parked

/-- START_LINE's effect on the node table; answers the number of entries set (R20). -/
def resetEntries (l : Line) (s : State) : State × Nat :=
  let chosen := entryIndexes.filter fun i => (s.node i).startsWith l
  (chosen.foldl (fun t i => t.setNode i (t.node i).lineStarted) s, chosen.length)

/-- Park (R19). -/
def NodeEntry.park (e : NodeEntry) : NodeEntry := e.change .parked .parked

/-- Unpark (R19). -/
def NodeEntry.unpark (e : NodeEntry) : NodeEntry :=
  ({ e with missRun := 0 }.setRestart).change .pending .unparked

/-- The entry of a claim (R22). -/
def NodeEntry.claim (e : NodeEntry) (l : Line) (a : Address) (x : Identity) : NodeEntry :=
  { e with generation := e.generation + 1, line := l, address := a, identity := some x, assignHold := true }

/-- The entry of an acknowledged ASSIGN for a claim (R22). -/
def NodeEntry.bindClaim (e : NodeEntry) : NodeEntry :=
  { e.change .active .assigned with
    assignHold := false
    putToggle := false
    acceptedToggle := true
    restartPending := false
    morePending := false
    missRun := 0
    pollClass := .steady
    goodReplies := 0
    misses := 0 }

/-- The entry of an acknowledged ASSIGN that reuses it (R23). -/
def NodeEntry.bindReused (e : NodeEntry) : NodeEntry :=
  { e.change (if e.state == .parked then .parked else .active) .reassigned with
    putToggle := false
    acceptedToggle := true
    restartPending := false
    morePending := false
    missRun := 0 }

end Sys2Proof.Machine
end

