-- ==== Sys2Proof/Machine/Discovery.lean ====
section
/-! DEFINITION. The discovery unit (06): what outcomes do to the range stack and the assignment, the
end of an exchange of a step, and the end of a run. -/

namespace Sys2Proof.Machine

/-! ### The range stack -/

/-- The identity's leading bits, as many as the range's length, equal the range's (R103). -/
def IdRange.matchesId (r : IdRange) (x : Identity) : Bool :=
  x >>> (32 - r.length) == r.value >>> (32 - r.length)

/-- The half of a range whose next bit is 0 (R105). -/
def IdRange.zeroHalf (r : IdRange) : IdRange := ⟨r.value, r.length + 1, 0⟩

/-- The half of a range whose next bit is 1 (R105). -/
def IdRange.oneHalf (r : IdRange) : IdRange :=
  ⟨r.value ||| ((1 : BitVec 32) <<< (31 - r.length)), r.length + 1, 0⟩

/-- The range of every identity (R101). -/
def IdRange.all : IdRange := ⟨0, 0, 0⟩

/-- A collision splits the top range, or drops a range of full length as a clash (R105). -/
def Discovery.collision (d : Discovery) : Discovery :=
  match d.stack with
  | [] => d
  | top :: rest =>
    if top.length < 32 then { d with stack := top.zeroHalf :: top.oneHalf :: rest }
    else { d with stack := rest, clashes := satInc d.clashes }

/-- An INVITE's outcome at the record (Table 6-2, R104, R105, R107, R108). -/
def Discovery.inviteOutcome (d : Discovery) (o : ExchangeOutcome) : Discovery :=
  match o with
  | .noReply => { d with stack := d.stack.tail }
  | .badReply => d.collision
  | .reply (.bid x) =>
    match d.stack with
    | [] => d
    | top :: _ => if top.matchesId x then { d with bid := some x } else d.collision
  | _ => d

/-- The assignment is over and the range on top stays, with its failure count 0 (R109). -/
def Discovery.bound (d : Discovery) : Discovery :=
  { d with
    stack := match d.stack with
      | [] => []
      | top :: rest => { top with failures := 0 } :: rest
    assignment := none
    bid := none }

/-- The assignment round ends without an ACK (R110). -/
def Discovery.roundFailed (d : Discovery) : Discovery :=
  match d.stack with
  | [] => { d with assignment := none, bid := none }
  | top :: rest =>
    if top.failures + 1 < 3 then
      { d with
        stack := { top with failures := top.failures + 1 } :: rest
        assignment := none
        bid := none }
    else
      { d with
        stack := rest
        unresponsive := satInc d.unresponsive
        assignment := none
        bid := none }

/-- A claim is released without an ACK; a reused entry is left as it is (R22, R110, R112). -/
def releaseClaim (l : Line) (s : State) : State :=
  match (s.line l).discovery.assignment with
  | some a => if a.claimed then s.setNode a.entry { s.node a.entry with assignHold := false } else s
  | none => s

/-- The unit is told an INVITE's outcome (R102). -/
def tellInvite (l : Line) (o : ExchangeOutcome) (s : State) : State :=
  if (s.line l).discovery.active then s.updDiscovery l fun d => d.inviteOutcome o else s

/-- An ACK binds the assignment's node (R22, R23, R109). -/
def bindAssignment (l : Line) (a : Assignment) (s : State) : State :=
  let e := s.node a.entry
  if a.claimed then
    if e.assignHold then
      let s1 := raiseNodeNotice a.entry (s.setNode a.entry e.bindClaim)
      s1.updDiscovery l fun d => { d.bound with found := satInc d.found }
    else s
  else if e.held && !e.removalPending then
    let s1 := raiseNodeNotice a.entry (s.setNode a.entry e.bindReused)
    s1.updDiscovery l fun d => { d.bound with reassigned := satInc d.reassigned }
  else s

/-- A failed ASSIGN: the third ends the round (R110); none has an effect while the reused entry has
removal pending (R111). -/
def failAssignment (l : Line) (a : Assignment) (s : State) : State :=
  if !a.claimed && (s.node a.entry).removalPending then s
  else if a.sent < 3 then s
  else (releaseClaim l s).updDiscovery l Discovery.roundFailed

/-- The unit is told an ASSIGN's outcome (R102, R109, R110). -/
def tellAssign (l : Line) (o : ExchangeOutcome) (s : State) : State :=
  let d := (s.line l).discovery
  if d.active then
    match d.assignment with
    | some a =>
      match o with
      | .reply _ => bindAssignment l a s
      | .noReply => failAssignment l a s
      | .badReply => failAssignment l a s
      | .contention => failAssignment l a s
      | .lineFault => s
      | .aborted => s
      | .sent => s
    | none => s
  else s

/-! ### Steps and runs -/

/-- The step ends and the line returns to its scheduler (R102). -/
def endStep (l : Line) (s : State) : State :=
  s.updScheduler l fun c => { c with stepInProgress := false }

/-- The reason a run ends with: a stop already pending gives it (R113, R114). -/
def StopPending.reasonOr (p : StopPending) (r : StopReason) : StopReason :=
  match p with
  | .none => r
  | .cancelled => .cancelled
  | .lineStopped => .lineStopped

/-- The record of a unit whose run has ended (R112). -/
def Discovery.ended (d : Discovery) (r : StopReason) : Discovery :=
  { d with
    active := false
    stopPending := .none
    stack := []
    bid := none
    assignment := none
    lastResult := some ⟨r, d.found, d.reassigned, d.clashes, d.unresponsive⟩ }

/-- A run ends (R112); an inactive unit is left as it is. -/
def endRun (l : Line) (r : StopReason) (s : State) : State :=
  if (s.line l).discovery.active then
    let s1 := (releaseClaim l s).updDiscovery l fun d => d.ended r
    raiseDiscoveryNotice l (endStep l s1)
  else s

/-- A run ends with the stop already pending, or else with `r` (R113, R114). -/
def endRunPending (l : Line) (r : StopReason) (s : State) : State :=
  endRun l ((s.line l).discovery.stopPending.reasonOr r) s

/-- A step opens with an INVITE from the top of the stack (R58, R103). -/
def openStep (l : Line) (s : State) : State :=
  match (s.line l).discovery.stack with
  | [] => s
  | top :: _ =>
    beginExchange l ⟨.invite top.length top.value, .invite⟩
      (s.updScheduler l fun c => { c with stepInProgress := true })

/-- An ASSIGN of the assignment is handed over, ASSIGNs sent + 1 (R109, R110). -/
def sendAssign (l : Line) (a : Assignment) (x : Identity) (s : State) : State :=
  let s1 := s.updDiscovery l fun d => { d with assignment := some { a with sent := a.sent + 1 } }
  let reused := if a.claimed then none else some (s.handleOf a.entry)
  beginExchange l ⟨.assign x a.address, .assign reused⟩ s1

/-- The held entry of the line with an identity (R23, R108). -/
def holderOfIdentity (l : Line) (x : Identity) (s : State) : Option EntryIndex :=
  entryIndexes.find? fun i =>
    let e := s.node i
    e.line == l && e.held && e.identity == some x

/-- The lowest free address of the assign range (R6, R108). -/
def firstFreeAddress (l : Line) (s : State) : Option Address :=
  let p := (s.line l).guard.params
  ((List.range 128).map fun n => BitVec.ofNat 7 n).find? fun a =>
    p.assignLow.toNat ≤ a.toNat && a.toNat ≤ p.assignHigh.toNat && !addressInUse l a s

/-- The assignment for a bid, decided at the end of the INVITE (R108). -/
def decideAssignment (l : Line) (x : Identity) (s : State) : State :=
  match holderOfIdentity l x s with
  | some i => sendAssign l ⟨i, false, (s.node i).address, 0⟩ x s
  | none =>
    match firstAllocatable s with
    | none => endRun l .tableFull s
    | some i =>
      match firstFreeAddress l s with
      | none => endRun l .addressPoolEmpty s
      | some a => sendAssign l ⟨i, true, a, 0⟩ x (s.setNode i ((s.node i).claim l a x))

/-- The unit is told that the entry it was binding is gone (R111). -/
def forgetAssignment (l : Line) (s : State) : State :=
  s.updDiscovery l fun d => { d with assignment := none, bid := none }

/-- What the unit does at the end of an exchange of its step (R102, R104, R108 to R111, R113):
the run's end, the step's next exchange, or the step's end. -/
def continueStep (l : Line) (c : Carried) (s : State) : State :=
  let d := (s.line l).discovery
  match d.stack with
  | [] => endRun l .done s
  | _ :: _ =>
    match d.stopPending with
    | .cancelled => endRun l .cancelled s
    | .lineStopped => endRun l .lineStopped s
    | .none =>
      match c, d.bid, d.assignment with
      | .invite, some x, _ => decideAssignment l x s
      | .assign _, some x, some a => if a.sent < 3 then sendAssign l a x s else endStep l s
      | _, _, _ => endStep l s

/-- The end of an exchange, as the discovery unit sees it; `gone` when its target was removed at that
moment (R111). -/
def exchangeEnded (l : Line) (c : Carried) (gone : Bool) (s : State) : State :=
  let b := s.line l
  if b.discovery.active && b.scheduler.stepInProgress then
    continueStep l c (if gone then forgetAssignment l s else s)
  else s

end Sys2Proof.Machine
end

