-- ==== Sys2Proof/Machine/Transfers.lean ====
section
/-! DEFINITION. What outcomes do to the in-flight record (02, Table 2-3). -/

namespace Sys2Proof.Machine

/-- Where an outcome sends a record (Table 2-3). -/
inductive Disposition where
  | complete (result : TransferResult) (data : Option (List Byte)) (nak : Option NakReason)
  | toTail
  | toHead
deriving DecidableEq, Repr

/-- The exchange ran its course on the wire and counts as an attempt (R34). -/
def ExchangeOutcome.counts : ExchangeOutcome → Bool
  | .reply _ => true
  | .noReply => true
  | .badReply => true
  | .sent => true
  | .contention => false
  | .lineFault => false
  | .aborted => false

/-- R35 to R38 on a record whose attempts already count this outcome. -/
def TransferRecord.dispose (x : TransferRecord) (o : ExchangeOutcome) : Disposition :=
  let again (r : TransferResult) (nak : Option NakReason) : Disposition :=
    if x.attempts ≤ x.retryBudget then .toTail else .complete r none nak
  match o with
  | .reply .ack => .complete .done none none
  | .reply (.data _ _ p) => .complete .done (some p) none
  | .reply (.nak .refused) => .complete .rejected none (some .refused)
  | .reply (.nak .busy) => again .busy (some .busy)
  | .reply (.empty _) => again .noAnswer none
  | .reply (.bid _) => again .noAnswer none
  | .noReply => again .noAnswer none
  | .badReply => again .noAnswer none
  | .sent => .complete .done none none
  | .contention => .toHead
  | .lineFault => .toHead
  | .aborted => .complete .aborted none none

/-- What would go back to a queue completes instead. -/
def Disposition.orElse (d : Disposition) (r : TransferResult) : Disposition :=
  match d with
  | .complete .. => d
  | .toTail => .complete r none none
  | .toHead => .complete r none none

/-- Removal, loss and STOPPING override a disposition, in that order (R39, R40, R43). -/
def Disposition.override (d : Disposition) (gone lost stopping : Bool) : Disposition :=
  if gone then d.orElse .nodeGone
  else if lost then .complete .nodeLost none none
  else if stopping then d.orElse .aborted
  else d

/-- The record's attempts after an outcome (R34). -/
def TransferRecord.attempted (x : TransferRecord) (o : ExchangeOutcome) : TransferRecord :=
  { x with attempts := if o.counts then x.attempts + 1 else x.attempts }

/-- The transfer manager is told the outcome of the exchange that carries record `r` (R33 to R40,
R43, R48). -/
def tellRecord (r : RecordIndex) (o : ExchangeOutcome) (gone lost stopping : Bool) (s : State) :
    State :=
  let x := (s.record r).attempted o
  match (x.dispose o).override gone lost stopping with
  | .complete result data nak =>
    completeRecord r result (s.setRecord r { x with replyData := data, nakReason := nak })
  | .toTail => queueTail r (s.setRecord r { x with state := .queued })
  | .toHead => queueHead r (s.setRecord r { x with state := .queued })

/-- Every QUEUED record aimed at an entry completes, on the line of the entry (R39, R40). -/
def completeAimedAt (l : Line) (i : EntryIndex) (result : TransferResult) (s : State) :
    State × Nat :=
  completeQueued l (fun x => x.aimedAt i) result s

end Sys2Proof.Machine
end

