-- ==== Sys2Proof/Machine/Exchanges.lean ====
section
/-! DEFINITION. Fixing an exchange's outcome and telling its owners (R81, R82), entering FAULTED
(R122), the end of a sent frame (R75, R143), and an exchange's end (R84). -/

namespace Sys2Proof.Machine

/-- The line's counts of outcomes (R81). -/
def countOutcome (o : ExchangeOutcome) (c : LineCounters) : LineCounters :=
  match o with
  | .noReply => { c with noReply := satInc c.noReply }
  | .badReply => { c with badReply := satInc c.badReply }
  | .contention => { c with contention := satInc c.contention }
  | .reply _ => c
  | .sent => c
  | .lineFault => c
  | .aborted => c

/-- The contention run after an outcome (R121). -/
def contentionRunAfter (o : ExchangeOutcome) (run : Nat) : Nat :=
  match o with
  | .contention => run + 1
  | .reply _ => 0
  | .noReply => 0
  | .badReply => 0
  | .sent => 0
  | .lineFault => run
  | .aborted => run

/-- The engine once an outcome is fixed: GUARD, or IDLE after ABORTED (Table 4-6). -/
def engineAfter (p : LineParams) (x : Exchange) (o : ExchangeOutcome) : Engine :=
  match o with
  | .aborted => .idle
  | _ => .guard x o (charTimes p p.guardTime.toNat)

/-- The wire side of an outcome: the driver released, GUARD or IDLE, the counts, the contention run. -/
def leaveWire (l : Line) (x : Exchange) (o : ExchangeOutcome) (s : State) : State :=
  (releaseDriver l s).updLine l fun b =>
    { b with
      engine := engineAfter b.guard.params x o
      guard := { b.guard with
        contentionRun := contentionRunAfter o b.guard.contentionRun
        counters := countOutcome o b.guard.counters } }

/-- The node table and the transfer queue of a node that this outcome has made LOST (R10, R39). -/
def loseTransfers (l : Line) (i : EntryIndex) (lost : Bool) (s : State) : State :=
  if lost then (completeAimedAt l i .nodeLost s).1 else s

/-- The owners of Table 4-7 are told an outcome; `stopping` when the line is STOPPING (R43). -/
def tellOwners (l : Line) (x : Exchange) (o : ExchangeOutcome) (stopping : Bool) (s : State) :
    State :=
  match x.carried with
  | .poll h slot =>
    let before := s.node h.index
    let told := tellNode h.index x.frame o l s
    tellStore l h.index slot x.frame o before (loseTransfers l h.index told.2 told.1)
  | .transfer r (some h) =>
    let before := s.node h.index
    let told := tellNode h.index x.frame o l s
    loseTransfers l h.index told.2
      (tellRecord r o before.removalPending told.2 stopping told.1)
  | .transfer r none => tellRecord r o false false stopping s
  | .invite => tellInvite l o s
  | .assign _ => tellAssign l o s

/-- An outcome is fixed: nothing where no exchange waits for one (R81). -/
def fixOutcome (l : Line) (o : ExchangeOutcome) (s : State) : State :=
  let b := s.line l
  match b.engine.unfixed with
  | some x => tellOwners l x o (b.guard.lineState == .stopping) (leaveWire l x o s)
  | none => s

/-- The guard, scheduler and pins of a line that enters FAULTED (R62, R122). -/
def LineBlock.enterFault (b : LineBlock) (why : FaultReason) : LineBlock :=
  let g := b.guard
  let failedRecovery :=
    g.lineState == .recovering || (g.lineState == .starting && g.startCause == .recovery)
  { b with
    guard := { g with
      lineState := .faulted
      faultReason := why
      stopAfterHold := g.stopAfterHold || g.lineState == .stopping
      recoveryCount := if failedRecovery then satInc g.recoveryCount else g.recoveryCount
      holdTimer := some (holdTime g.params)
      watch := .stopped
      stuckRun := none
      counters := { g.counters with faults := satInc g.counters.faults } }
    pins := { b.pins with tx := .rest, de := false }
    scheduler := { b.scheduler with running := false, floor := .stopped, stepInProgress := false } }

/-- The line enters FAULTED: an unfixed exchange ends LINE_FAULT, a run ends (R85, R114, R122). -/
def enterFaulted (l : Line) (why : FaultReason) (s : State) : State :=
  let s1 := fixOutcome l .lineFault s
  let s2 := s1.updLine l fun b => b.enterFault why
  endRunPending l .lineFault (raiseLineNotice l s2)

/-- CONTENTION is fixed; a third in a row faults the line (R74, R121). -/
def fixContention (l : Line) (s : State) : State :=
  let s1 := fixOutcome l .contention s
  let g := (s1.line l).guard
  if g.contentionRun ≥ 3 && g.lineState.watched then enterFaulted l .contention s1 else s1

/-- A POLL that is transmitted takes more pending off its entry (R16, R52). -/
def pollTransmitted (c : Carried) (s : State) : State :=
  match c with
  | .poll h _ => s.setNode h.index { s.node h.index with morePending := false }
  | _ => s

/-- The reply window opens (R75). -/
def openWindow (l : Line) (x : Exchange) (s : State) : State :=
  let p := (s.line l).guard.params
  (releaseDriver l s).setEngine l (.awaiting x (some (charTimes p p.replyTimeout.toNat)))

/-- The frame has been sent without contention: SENT for SEND_ALL, the window for the rest (R75). -/
def endFrameSent (l : Line) (x : Exchange) (s : State) : State :=
  if x.frame.isSendAll then fixOutcome l .sent s
  else pollTransmitted x.carried (openWindow l x s)

/-- The last stop bit has ended on TX (R143): with every echo found to match the frame is sent; with the
last echo outstanding DE is released and SENDING goes on. -/
def sendFrame (l : Line) (s : State) : State :=
  match (s.line l).engine with
  | .sending x echoed false =>
    if x.frame.characters.length ≤ echoed then endFrameSent l x s
    else if x.frame.characters.length = echoed + 1 then releaseDriver l s
    else s
  | _ => s

/-- The engine returns to IDLE and a deferred removal of the target completes (R18, R84). -/
def finishExchange (l : Line) (c : Carried) (s : State) : State :=
  finishTarget c (s.setEngine l .idle)

/-- A GUARD is cut short: the outcome stands and the exchange ends (R86, R123, R125). -/
def cutGuard (l : Line) (s : State) : State :=
  match (s.line l).engine with
  | .guard x _ _ => finishExchange l x.carried s
  | _ => s

end Sys2Proof.Machine
end

