-- ==== Sys2Proof/Machine/Arbitration.lean ====
section
/-! DEFINITION. The line scheduler (03): due entries, the walk, the order of choice and what each step
of it does. -/

namespace Sys2Proof.Machine

/-- Table 3-3: the entry at index `i` is due on line `l` in cycle `c`. -/
def NodeEntry.due (e : NodeEntry) (l : Line) (c : Word16) (i : EntryIndex) : Bool :=
  let phase (n : Nat) : Bool := c.toNat % n == i.val % n
  let byClass : Bool :=
    match e.pollClass with
    | .fast => true
    | .steady => phase 4
    | .slow => phase 16
  e.line == l &&
    match e.state with
    | .pending => e.morePending || byClass
    | .active => e.morePending || byClass
    | .silent => e.morePending || byClass
    | .lost => e.morePending || phase 32
    | .parked => false
    | .free => false

/-- The first due entry from the walk position upward (R53). -/
def firstDue (l : Line) (s : State) : Option EntryIndex :=
  let c := (s.line l).scheduler
  entryIndexes.find? fun i => c.walk ≤ i.val && (s.node i).due l c.cycle i

/-- A choice of the scheduler (Table 3-4). -/
inductive Choice where
  /-- step 1 -/
  | urgent (r : RecordIndex)
  /-- step 2 -/
  | normal (r : RecordIndex)
  /-- step 3 -/
  | poll (i : EntryIndex)
  /-- step 4 -/
  | discovery
  /-- step 5 -/
  | lateNormal (r : RecordIndex)
  /-- step 6 -/
  | endCycle
  /-- step 7 -/
  | wait
deriving DecidableEq, Repr

/-- Steps 4 to 7 of the order of choice, the walk being complete (Table 3-4). -/
def afterWalk (b : LineBlock) : Choice :=
  if !b.scheduler.turnTaken && b.discovery.active && !b.discovery.stack.isEmpty then .discovery
  else
    match b.normal with
    | r :: _ => .lateNormal r
    | [] => if b.scheduler.floor == .elapsed then .endCycle else .wait

/-- Steps 3 to 7 (Table 3-4). -/
def afterQueues (l : Line) (s : State) : Choice :=
  match firstDue l s with
  | some i => .poll i
  | none => afterWalk (s.line l)

/-- The order of choice: the first step whose condition holds (R55, Table 3-4). -/
def orderOfChoice (l : Line) (s : State) : Choice :=
  let b := s.line l
  match b.urgent, b.normal with
  | r :: _, _ => .urgent r
  | [], r :: _ =>
    if b.scheduler.interleaveCount < b.guard.params.interleave.toNat then .normal r
    else afterQueues l s
  | [], [] => afterQueues l s

/-- The master frame of a picked record (R33). -/
def recordFrame (x : TransferRecord) (s : State) : MasterFrame :=
  match x.kind, x.target with
  | .put, some h =>
    let e := s.node h.index
    .put e.address e.putToggle e.restartPending x.payload
  | .take, some h =>
    let e := s.node h.index
    .take e.address e.restartPending x.payload
  | _, _ => .sendAll x.payload

/-- A record leaves the head of its queue and becomes IN_FLIGHT (R32, R63). -/
def pickRecord (l : Line) (r : RecordIndex) (s : State) : State :=
  let x := s.record r
  let s1 := s.updLine l fun b => { b with urgent := b.urgent.erase r, normal := b.normal.erase r }
  let s2 := s1.setRecord r { x with state := .inFlight, deadline := none, deadlineTimer := none }
  beginExchange l ⟨recordFrame x s, .transfer r x.target⟩ s2

/-- A POLL is picked: a reservation is asked for, the frame built, the walk moved past the entry, the
interleave count set to 0 (R57, R64, R90). -/
def pickPoll (l : Line) (i : EntryIndex) (s : State) : State :=
  let e := s.node i
  let h := s.handleOf i
  let slot := firstFreeSlot s
  let s1 := s.updScheduler l fun c => { c with walk := i.val + 1, interleaveCount := 0 }
  let s2 := match slot with
    | some k => reserveSlot k l h s1
    | none => s1
  beginExchange l
    ⟨.poll e.address e.acceptedToggle slot.isNone e.restartPending, .poll h slot⟩ s2

/-- The walk is complete for this cycle (R53). -/
def walkComplete (l : Line) (s : State) : State :=
  s.updScheduler l fun c => { c with walk := 64 }

/-- The cycle ends and the next begins (R50, R59). -/
def endCycle (l : Line) (s : State) : State :=
  s.updLine l fun b =>
    { b with
      scheduler := { b.scheduler with
        cycle := b.scheduler.cycle + 1
        walk := 0
        turnTaken := false
        floor := .running (floorTime b.guard.params) }
      guard := { b.guard with
        counters := { b.guard.counters with
          cyclesCompleted := satInc b.guard.counters.cyclesCompleted } } }

/-- What a choice does, but for step 6's choosing again (R56 to R61). -/
def applyChoice (l : Line) (c : Choice) (s : State) : State :=
  match c with
  | .urgent r => pickRecord l r s
  | .normal r =>
    pickRecord l r
      (s.updScheduler l fun c => { c with interleaveCount := c.interleaveCount + 1 })
  | .poll i => pickPoll l i s
  | .discovery =>
    openStep l ((walkComplete l s).updScheduler l fun c => { c with turnTaken := true })
  | .lateNormal r => pickRecord l r (walkComplete l s)
  | .endCycle => endCycle l s
  | .wait => walkComplete l s

/-- The scheduler is entitled to pick (R54). -/
def LineBlock.entitled (b : LineBlock) : Bool :=
  b.scheduler.running && b.guard.lineState == .running && b.engine == .idle &&
    !b.scheduler.stepInProgress

/-- A scheduler entitled to pick makes its choice; one that ends the cycle chooses again at once in
the new cycle, whose floor has not elapsed (R54, R55). -/
def choose (l : Line) (s : State) : State :=
  if (s.line l).entitled then
    match orderOfChoice l s with
    | .endCycle =>
      let s1 := endCycle l s
      applyChoice l (orderOfChoice l s1) s1
    | c => applyChoice l c s
  else s

/-- The line enters RUNNING and its scheduler begins to run (R62). -/
def LineBlock.startScheduler (b : LineBlock) : LineBlock :=
  { b with
    scheduler := { b.scheduler with
      running := true
      walk := 0
      turnTaken := false
      interleaveCount := 0
      stepInProgress := false
      floor := .running (floorTime b.guard.params) } }

end Sys2Proof.Machine
end

