-- ==== Sys2Proof/Machine/Outbound.lean ====
section
/-! DEFINITION. The outbound arbiter (R163): reports' bodies (Table 12-5), beginning a report (R148),
a reply or the ANNOUNCE. -/

namespace Sys2Proof.Machine

/-- The body of a COMPLETION after its sequence (R151, Table 12-5). -/
def completionBody (x : TransferRecord) : List Byte :=
  let data := x.replyData.getD []
  le16 x.tag ++ le16 (targetField x.target x.line) ++
    [(x.result.map TransferResult.code).getD 0xFF, BitVec.ofNat 8 x.attempts, nakCode x.nakReason,
      BitVec.ofNat 8 data.length] ++ data

/-- The body of a NODE report after its sequence (R153, Table 12-5). -/
def nodeBody (h : Handle) (e : NodeEntry) : List Byte :=
  le16 h.number ++ [e.state.code, lineCode e.line, e.address.zeroExtend 8] ++
    identityField e.identity ++ [e.changeCount, e.lastChange.code]

/-- The body of a DATA report after its sequence (R152, Table 12-5). -/
def dataBody (x : ReceiveSlot) : List Byte :=
  le16 x.handle.number ++
    [lineCode x.line, x.address.zeroExtend 8, BitVec.ofNat 8 x.payload.length] ++ x.payload

/-- The body of a LINE report after its sequence (R154, Table 12-5). -/
def lineBody (l : Line) (g : LineGuard) : List Byte :=
  [lineCode l, g.lineState.code, g.faultReason.code, g.recoveryCount]

/-- The body of a DISCOVERY report after its sequence (R154, Table 12-5); a last result is always
present when one is built (R154). -/
def discoveryBody (l : Line) (r : Option DiscoveryResult) : List Byte :=
  let x := r.getD ⟨.done, 0, 0, 0, 0⟩
  [lineCode l, x.reason.code] ++ le16 x.found ++ le16 x.reassigned ++ le16 x.clashes ++
    le16 x.unresponsive

/-- The body of a LINK report after its sequence (R155, Table 12-5). -/
def linkBody (n : LinkNotice) : List Byte :=
  le16 n.checkFailures ++ le16 n.framingFailures ++ le16 n.inboxOverruns ++
    [yesNo n.lastDiscarded.isSome, n.lastDiscarded.getD 0]

/-- A report's kind (Table 12-1). -/
def Source.kind : Source → Byte
  | .completion _ => 0x41
  | .node _ => 0x42
  | .data _ => 0x43
  | .line _ => 0x44
  | .discovery _ => 0x45
  | .link => 0x46

/-- A report's body after its sequence, built from its source as it stands (R148). -/
def reportBody (src : Source) (s : State) : List Byte :=
  match src with
  | .completion r => completionBody (s.record r)
  | .node i => nodeBody (s.handleOf i) (s.node i)
  | .data k => dataBody (s.slot k)
  | .line l => lineBody l (s.line l).guard
  | .discovery l => discoveryBody l (s.line l).discovery.lastResult
  | .link => linkBody s.link.notice

/-- What a source does as its report begins (Table 9-1, R25, R98, R115, R131, R155). -/
def sourceBegins (src : Source) (s : State) : State :=
  match src with
  | .completion _ => s
  | .node i => s.setNode i { s.node i with noticePending := false, changeCount := 0 }
  | .data k => s.setSlot k { s.slot k with state := .sending }
  | .line l => s.updGuard l fun g => { g with noticePending := false }
  | .discovery l => s.updDiscovery l fun d => { d with noticePending := false }
  | .link => s.updLink fun k => { k with notice := .zero }

/-- The message of a report with its sequence (R149, R185). -/
def reportMessage (src : Source) (s : State) : Message :=
  ⟨src.kind, s.link.reportSeq.extractLsb' 0 8, le16 s.link.reportSeq ++ reportBody src s⟩

/-- The head report begins: a credit, the queue, the sequence, the body and the source (R148). -/
def beginReport (src : Source) (rest : List Source) (s : State) : State :=
  let m := reportMessage src s
  let s1 := sourceBegins src { s with reports := rest }
  s1.updLink fun k =>
    { k with
      credits := k.credits - 1
      reportSeq := k.reportSeq + 1
      transmitter := some (.report src m) }

/-- The oldest READY entry becomes SENDING; answers its reply (R161, R163). -/
def takeOldestReady : List InboxEntry → Option (Message × List InboxEntry)
  | [] => none
  | e :: rest =>
    match e.state with
    | .ready m => some (m, { e with state := .sending m } :: rest)
    | _ => (takeOldestReady rest).map fun p => (p.1, e :: p.2)

/-- The ANNOUNCE of a cause (R165). -/
def announceMessage (c : ResetCause) : Message := ⟨0x60, 0, announceBody c.code⟩

/-- The arbiter's choice when the transmitter is idle: the ANNOUNCE, the oldest READY reply, the
head report when there is a credit, or nothing (R163). -/
def arbitrate (s : State) : State :=
  match s.link.transmitter with
  | some _ => s
  | none =>
    match s.link.announcePending with
    | some c => s.updLink fun k =>
        { k with announcePending := none, transmitter := some (.announce (announceMessage c)) }
    | none =>
      match takeOldestReady s.link.inbox with
      | some (m, inbox) => s.updLink fun k =>
          { k with inbox := inbox, transmitter := some (.reply m) }
      | none =>
        match s.reports with
        | src :: rest => if s.link.credits = 0 then s else beginReport src rest s
        | [] => s

/-- A command while the part is held in reset by its pin changes nothing (R187; log entry 9). -/
def outOfReset (f : State → State) (s : State) : Host.Outcome State Fault Refusal :=
  match s.resetPin with
  | .low _ => .next s
  | .high => .next (f s)

/-- A command after which the arbiter may have something to begin (R163; log entry 5). -/
def command (f : State → State) : State → Host.Outcome State Fault Refusal :=
  outOfReset fun s => arbitrate (f s)

end Sys2Proof.Machine
end

