-- ==== Sys2Proof/Machine/Receiver.lean ====
section
/-! DEFINITION. The line receiver (08) and what the engine makes of its characters (R76, R78, R142):
LINE_CHARACTER_RECEIVED, REPLY_COMPLETE, START_VERIFIED, FALSE_START, RECEIVER_ARMED and
LINE_LEVEL_CHANGE. -/

namespace Sys2Proof.Machine

/-- The receiver's state on entering SEARCH, armed: a level already dominant is a start edge at the
next sample (R135, R136; log entry 14). -/
def armedState (rx : Level) : ReceiverState :=
  match rx with
  | .dominant => .start
  | .recessive => .searchArmed

/-- The receiver's state after a character (the table of R138). -/
def stateAfterCharacter (k : CharacterKind) (rx : Level) : ReceiverState :=
  match k with
  | .good => armedState rx
  | .framingError => .searchUnarmed
  | .breakCharacter => .searchUnarmed

/-- A start verified or a character completed is in progress (R77). -/
def ReceiverState.inCharacter : ReceiverState → Bool
  | .bits => true
  | .stop => true
  | _ => false

/-- The gap timer's setting (R141). -/
def gapTime (p : LineParams) : Duration := charTimes p p.gapLimit.toNat

/-- An echo matches the character sent: good, with its data and its mark (R142). -/
def echoMatches (sent : Byte × Bool) (c : ReceivedCharacter) : Bool :=
  c.kind == .good && sent == (c.data, c.mark)

/-- The echo check on a completed character (R142, R143). With DE on, a match is counted and a
difference kept for ECHO_CONTENTION; with DE off it is the last echo, whose match ends the frame and
whose difference is contention at that moment. -/
def echoCharacter (l : Line) (x : Exchange) (echoed : Nat) (c : ReceivedCharacter) (s : State) :
    State :=
  match x.frame.characters[echoed]? with
  | some sent =>
    let driven := (s.line l).pins.de
    if echoMatches sent c then
      let s1 := s.setEngine l (.sending x (echoed + 1) false)
      if driven then s1 else sendFrame l s1
    else if driven then s.setEngine l (.sending x echoed true)
    else fixContention l s
  | none => s

/-- The second check character of the reply is due next (R78). -/
def lastIsDue (got : List Byte) : Bool :=
  match got with
  | _ :: _ :: n :: _ => got.length == 4 + n.toNat
  | _ => false

/-- A character of the reply after its head (R78, cases 1 and 3 to 5). -/
def collectCharacter (l : Line) (x : Exchange) (got : List Byte) (c : ReceivedCharacter)
    (s : State) : State :=
  let next := got ++ [c.data]
  if c.kind != .good || c.mark then fixOutcome l .badReply s
  else if lastIsDue got then fixOutcome l (judgeReply x.frame next) s
  else if got.length = 2 && Config.payloadMaximum < c.data.toNat then fixOutcome l .badReply s
  else s.setEngine l (.receiving x next (some (gapTime (s.line l).guard.params)))

/-- A character where the reply's head is due (R76, R77). -/
def headCharacter (l : Line) (x : Exchange) (window : Timer) (c : ReceivedCharacter) (s : State) :
    State :=
  match c.kind with
  | .good =>
    if c.mark then
      s.setEngine l (.receiving x [c.data] (some (gapTime (s.line l).guard.params)))
    else if window.isNone then fixOutcome l .noReply s
    else s
  | .framingError => fixOutcome l .badReply s
  | .breakCharacter => fixOutcome l .badReply s

/-- What the engine does with a character, by its state (Table 4-9). -/
def engineCharacter (l : Line) (c : ReceivedCharacter) (s : State) : State :=
  match (s.line l).engine with
  | .idle => s
  | .sending x n differs => if differs then s else echoCharacter l x n c s
  | .awaiting x w => headCharacter l x w c s
  | .receiving x got _ => collectCharacter l x got c s
  | .guard _ _ _ => s

/-- The receiver's own side of a completed character (R137, R138, R139). -/
def countCharacter (l : Line) (c : ReceivedCharacter) (s : State) : State :=
  s.updLine l fun b =>
    { b with
      receiver := ⟨stateAfterCharacter c.kind b.pins.rx, false⟩
      guard := { b.guard with
        counters := { b.guard.counters with
          noisyCharacters :=
            if c.noisy then satInc b.guard.counters.noisyCharacters
            else b.guard.counters.noisyCharacters } } }

/-- A receiver with a character in progress completes it and hands it to its engine (R135, R138). -/
def receiveCharacter (l : Line) (bits : Samples 10) (s : State) : State :=
  let r := (s.line l).receiver
  if r.state.inCharacter then
    let c := decideCharacter r.startNoisy bits
    engineCharacter l c (countCharacter l c s)
  else s

/-- LINE_CHARACTER_RECEIVED (R138). -/
def execLineCharacterReceived (l : Line) (bits : Samples 10) (s : State) :
    Host.Outcome State Fault Refusal :=
  command (receiveCharacter l bits) s

/-- The character ends the reply, where its second check character is due (R78, R79). -/
def completeReply (l : Line) (bits : Samples 10) (s : State) : State :=
  match (s.line l).engine with
  | .receiving _ got _ => if lastIsDue got then receiveCharacter l bits s else s
  | _ => s

/-- REPLY_COMPLETE (R79). -/
def execReplyComplete (l : Line) (bits : Samples 10) (s : State) :
    Host.Outcome State Fault Refusal :=
  command (completeReply l bits) s

/-- A verified start stops the gap timer of a reply (R141). -/
def Engine.startSeen : Engine → Engine
  | .receiving x got _ => .receiving x got none
  | e => e

/-- What ends a receiver's START, where it stands in START (Table 8-3, R135). -/
def LineBlock.fromStart (f : LineBlock → LineBlock) (b : LineBlock) : LineBlock :=
  match b.receiver.state with
  | .start => f b
  | _ => b

/-- A start is verified: BITS, the character's noise mark, the gap timer stopped (R136, R137, R141). -/
def verifyStart (l : Line) (noisy : Bool) (s : State) : State :=
  s.updLine l (LineBlock.fromStart fun b =>
    { b with receiver := ⟨.bits, noisy⟩, engine := b.engine.startSeen })

/-- START_VERIFIED (R136). -/
def execStartVerified (l : Line) (noisy : Bool) (s : State) : Host.Outcome State Fault Refusal :=
  outOfReset (verifyStart l noisy) s

/-- A false start: counted, SEARCH armed, handed to no one (R136). -/
def rejectStart (l : Line) (s : State) : State :=
  s.updLine l (LineBlock.fromStart fun b =>
    { b with
      receiver := ⟨armedState b.pins.rx, false⟩
      guard := { b.guard with
        counters := { b.guard.counters with
          falseStarts := satInc b.guard.counters.falseStarts } } })

/-- FALSE_START (R136). -/
def execFalseStart (l : Line) (s : State) : Host.Outcome State Fault Refusal :=
  outOfReset (rejectStart l) s

/-- 8 recessive samples in a row arm a receiver in SEARCH (R135). -/
def armReceiver (l : Line) (s : State) : State :=
  s.updLine l fun b =>
    if b.receiver.state == .searchUnarmed && b.pins.rx == .recessive then
      { b with receiver := { b.receiver with state := .searchArmed } }
    else b

/-- RECEIVER_ARMED (R135). -/
def execReceiverArmed (l : Line) (s : State) : Host.Outcome State Fault Refusal :=
  outOfReset (armReceiver l) s

/-- The dominant run after a level change (R120): ended by recessive level, begun by dominant level
with DE off where it is watched for. -/
def runAfterLevel (b : LineBlock) (level : Level) : Timer :=
  match level with
  | .recessive => none
  | .dominant =>
    if b.guard.lineState.watched && !b.pins.de then
      some (b.guard.stuckRun.getD (stuckTime b.guard.params))
    else none

/-- RX changes level: a start edge on an armed receiver, and the dominant run (R120, R135). -/
def LineBlock.levelChange (b : LineBlock) (level : Level) : LineBlock :=
  { b with
    pins := { b.pins with rx := level }
    receiver :=
      if b.receiver.state == .searchArmed && level == .dominant then
        { b.receiver with state := .start }
      else b.receiver
    guard := { b.guard with stuckRun := runAfterLevel b level } }

/-- LINE_LEVEL_CHANGE (R120, R135); in a reset only the pin itself changes. -/
def execLineLevelChange (l : Line) (level : Level) (s : State) :
    Host.Outcome State Fault Refusal :=
  match s.resetPin with
  | .low _ => .next (s.updLine l fun b => { b with pins := { b.pins with rx := level } })
  | .high => .next (s.updLine l fun b => b.levelChange level)

end Sys2Proof.Machine
end

