-- ==== Sys2Proof/Machine/LineEngine.lean ====
section
/-! DEFINITION. The line engine's other events (04) and the timers of records and cycles: FRAME_SENT,
ECHO_CONTENTION, REPLY_WINDOW_EXPIRY, GAP_LIMIT_EXCEEDED, GUARD_EXPIRY, DEADLINE_EXPIRY and
CYCLE_FLOOR_EXPIRY. -/

namespace Sys2Proof.Machine

/-- FRAME_SENT (R75, R143). -/
def execFrameSent (l : Line) (s : State) : Host.Outcome State Fault Refusal :=
  command (sendFrame l) s

/-- Contention is fixed in SENDING (R74, R143). -/
def contend (l : Line) (s : State) : State :=
  match (s.line l).engine with
  | .sending _ _ _ => fixContention l s
  | _ => s

/-- ECHO_CONTENTION (R143). -/
def execEchoContention (l : Line) (s : State) : Host.Outcome State Fault Refusal :=
  command (contend l) s

/-- The window expires: NO_REPLY, or a wait for the character in progress (R77). -/
def expireWindow (l : Line) (s : State) : State :=
  let b := s.line l
  match b.engine with
  | .awaiting x (some _) =>
    if b.receiver.state.inCharacter then s.setEngine l (.awaiting x none)
    else fixOutcome l .noReply s
  | _ => s

/-- REPLY_WINDOW_EXPIRY (R77). -/
def execReplyWindowExpiry (l : Line) (s : State) : Host.Outcome State Fault Refusal :=
  command (expireWindow l) s

/-- The gap limit is exceeded and the reply truncated (R78, case 2; R141). -/
def exceedGap (l : Line) (s : State) : State :=
  match (s.line l).engine with
  | .receiving _ _ (some _) => fixOutcome l .badReply s
  | _ => s

/-- GAP_LIMIT_EXCEEDED (R141). -/
def execGapLimitExceeded (l : Line) (s : State) : Host.Outcome State Fault Refusal :=
  command (exceedGap l) s

/-- The end of the exchange in STOPPING: DOWN, a line notice, and the end of a run (R113, R114, R126). -/
def completeStop (l : Line) (s : State) : State :=
  let s1 := raiseLineNotice l (s.updLine l LineBlock.goDown)
  if (s1.line l).discovery.stack.isEmpty then endRun l .done s1
  else endRunPending l .lineStopped s1

/-- The guard expires and the exchange ends (R84). -/
def expireGuard (l : Line) (s : State) : State :=
  match (s.line l).engine with
  | .guard x _ _ =>
    let gone := targetLeaving x.carried s
    let s1 := finishExchange l x.carried s
    match (s.line l).guard.lineState with
    | .running => choose l (exchangeEnded l x.carried gone s1)
    | .stopping => completeStop l s1
    | _ => s1
  | _ => s

/-- GUARD_EXPIRY (R84). -/
def execGuardExpiry (l : Line) (s : State) : Host.Outcome State Fault Refusal :=
  command (expireGuard l) s

/-- A QUEUED record leaves its queue, wherever it stands, and completes (R41, R42). -/
def completeFromQueue (r : RecordIndex) (result : TransferResult) (s : State) : State :=
  completeRecord r result
    (s.updLine (s.record r).line fun b =>
      { b with urgent := b.urgent.erase r, normal := b.normal.erase r })

/-- The deadline of a QUEUED record passes (R41). -/
def expireDeadline (r : RecordIndex) (s : State) : State :=
  let x := s.record r
  if x.state == .queued && x.deadlineTimer.isSome then completeFromQueue r .expired s else s

/-- DEADLINE_EXPIRY (R41). -/
def execDeadlineExpiry (record : RecordIndex) (s : State) : Host.Outcome State Fault Refusal :=
  command (expireDeadline record) s

/-- The cycle floor elapses and prompts a choice of a scheduler that waits (R60). -/
def elapseFloor (l : Line) (s : State) : State :=
  match (s.line l).scheduler.floor with
  | .running _ => choose l (s.updScheduler l fun c => { c with floor := .elapsed })
  | _ => s

/-- CYCLE_FLOOR_EXPIRY (R60). -/
def execCycleFloorExpiry (l : Line) (s : State) : Host.Outcome State Fault Refusal :=
  command (elapseFloor l) s

end Sys2Proof.Machine
end

