-- ==== Sys2Proof/Machine/LineGuard.lean ====
section
/-! DEFINITION. The line guard's events (07): WAKE_BREAK_END, QUIET_COMPLETE, DOMINANT_IN_QUIET,
STUCK_DOMINANT, FAULT_HOLD_EXPIRY, RECOVERY_WATCH_COMPLETE and DOMINANT_IN_RECOVERY_WATCH. -/

namespace Sys2Proof.Machine

/-- The line enters STARTING and the wake break begins (R118, R119, R121, R124). -/
def LineBlock.enterStarting (b : LineBlock) (cause : StartCause) : LineBlock :=
  { b with
    guard := { b.guard with
      lineState := .starting
      startCause := cause
      contentionRun := 0
      holdTimer := none
      stuckRun := none
      watch := .wakeBreak (wakeBreakTime b.guard.params) }
    pins := { b.pins with tx := .wakeBreak, de := true } }

/-- The wake break ends, DE is released and the quiet is watched for (R119). -/
def endWakeBreak (l : Line) (s : State) : State :=
  s.updLine l fun b =>
    match b.guard.lineState, b.guard.watch with
    | .starting, .wakeBreak _ =>
      { b with
        pins := { b.pins with tx := .rest, de := false }
        guard := { b.guard with watch := .quiet (quietTime b.guard.params) } }
    | _, _ => b

/-- WAKE_BREAK_END (R119). -/
def execWakeBreakEnd (l : Line) (s : State) : Host.Outcome State Fault Refusal :=
  command (endWakeBreak l) s

/-- The guard of a line that reaches RUNNING (R119, R124). -/
def LineBlock.enterRunning (b : LineBlock) : LineBlock :=
  { b with
    guard := { b.guard with
      lineState := .running
      faultReason := .none
      recoveryCount := 0
      watch := .stopped } }

/-- The quiet is complete: RUNNING, a line notice, the scheduler runs and chooses (R62, R119). -/
def completeQuiet (l : Line) (s : State) : State :=
  let b := s.line l
  match b.guard.lineState, b.guard.watch, b.pins.rx with
  | .starting, .quiet _, .recessive =>
    choose l (raiseLineNotice l (s.updLine l fun b => b.enterRunning.startScheduler))
  | _, _, _ => s

/-- QUIET_COMPLETE (R119). -/
def execQuietComplete (l : Line) (s : State) : Host.Outcome State Fault Refusal :=
  command (completeQuiet l) s

/-- Dominant level in the quiet (R119). -/
def spoilQuiet (l : Line) (s : State) : State :=
  let g := (s.line l).guard
  match g.lineState, g.watch with
  | .starting, .quiet _ => enterFaulted l .startNotQuiet s
  | _, _ => s

/-- DOMINANT_IN_QUIET (R119). -/
def execDominantInQuiet (l : Line) (s : State) : Host.Outcome State Fault Refusal :=
  command (spoilQuiet l) s

/-- A dominant run passes 4 character times with DE off (R120). -/
def stickDominant (l : Line) (s : State) : State :=
  let b := s.line l
  if b.guard.lineState.watched && !b.pins.de && b.guard.stuckRun.isSome then
    enterFaulted l .stuck s
  else s

/-- STUCK_DOMINANT (R120). -/
def execStuckDominant (l : Line) (s : State) : Host.Outcome State Fault Refusal :=
  command (stickDominant l) s

/-- FAULTED to RECOVERING: the recovery watch begins (R123, R124). -/
def LineBlock.enterRecovering (b : LineBlock) : LineBlock :=
  { b with
    guard := { b.guard with
      lineState := .recovering
      holdTimer := none
      watch := .recovery (quietTime b.guard.params) } }

/-- The line goes RECOVERING with a notice; level already dominant as the watch begins faults it
again at once (R123, R124). -/
def beginRecovery (l : Line) (s : State) : State :=
  let s1 := raiseLineNotice l (s.updLine l LineBlock.enterRecovering)
  match (s1.line l).pins.rx with
  | .dominant => enterFaulted l .recoveryNotQuiet s1
  | .recessive => s1

/-- The stop that a fault interrupted is completed: DOWN, the queues ABORTED, a notice (R123). -/
def finishStop (l : Line) (s : State) : State :=
  let s1 := s.updLine l LineBlock.goDown
  raiseLineNotice l (completeQueued l (fun _ => true) .aborted s1).1

/-- The fault hold expires (R123). -/
def expireHold (l : Line) (s : State) : State :=
  let g := (s.line l).guard
  if g.lineState == .faulted && g.holdTimer.isSome then
    let s1 := cutGuard l s
    if g.stopAfterHold then finishStop l s1 else beginRecovery l s1
  else s

/-- FAULT_HOLD_EXPIRY (R123). -/
def execFaultHoldExpiry (l : Line) (s : State) : Host.Outcome State Fault Refusal :=
  command (expireHold l) s

/-- The recovery watch passes: STARTING with start cause RECOVERY, a notice (R124). -/
def completeRecoveryWatch (l : Line) (s : State) : State :=
  let b := s.line l
  match b.guard.lineState, b.guard.watch, b.pins.rx with
  | .recovering, .recovery _, .recessive =>
    raiseLineNotice l (s.updLine l fun b => b.enterStarting .recovery)
  | _, _, _ => s

/-- RECOVERY_WATCH_COMPLETE (R124). -/
def execRecoveryWatchComplete (l : Line) (s : State) : Host.Outcome State Fault Refusal :=
  command (completeRecoveryWatch l) s

/-- Dominant level in the recovery watch (R124). -/
def spoilRecoveryWatch (l : Line) (s : State) : State :=
  let g := (s.line l).guard
  match g.lineState, g.watch with
  | .recovering, .recovery _ => enterFaulted l .recoveryNotQuiet s
  | _, _ => s

/-- DOMINANT_IN_RECOVERY_WATCH (R124). -/
def execDominantInRecoveryWatch (l : Line) (s : State) : Host.Outcome State Fault Refusal :=
  command (spoilRecoveryWatch l) s

end Sys2Proof.Machine
end

