-- ==== Sys2Proof/Machine/Requests.lean ====
section
/-! DEFINITION. The requests (11): for each its checks in order, its effect and its reply body; and
the inbox that takes them (R161, R162). -/

namespace Sys2Proof.Machine

/-- What a request makes of the state, and its reply's body with the status first (R185). -/
abbrev Answer := State × List Byte

/-- A refused request changes nothing (R168). -/
def refuse (st : Status) (s : State) : Answer := (s, refusal st)

/-- An accepted request and its reply body (R168, R185). -/
def accept (s : State) (body : List Byte) : Answer := (s, acceptance body)

/-- A count as one byte of a reply (Table 12-4). -/
def countByte (n : Nat) : Byte := BitVec.ofNat 8 n

/-- A body of one line field (Table 12-3, R169). -/
def withLine (body : List Byte) (s : State) (f : Line → Answer) : Answer :=
  match body with
  | [b] =>
    match decodeLine b with
    | some l => f l
    | none => refuse .badValue s
  | _ => refuse .badLength s

/-- A body of one handle field (Table 12-3, R169). -/
def withHandle (body : List Byte) (s : State) (f : Handle → Answer) : Answer :=
  match body with
  | [b0, b1] =>
    match lookupHandle (word16 b0 b1) s with
    | some h => f h
    | none => refuse .staleHandle s
  | _ => refuse .badLength s

/-- A body of one tag field (Table 12-3): the record that holds the tag (R169). -/
def withTag (body : List Byte) (s : State) (f : RecordIndex → Answer) : Answer :=
  match body with
  | [b0, b1] =>
    match holderOf (word16 b0 b1) s with
    | some r => f r
    | none => refuse .unknownTag s
  | _ => refuse .badLength s

/-- A body of no field (Table 12-3). -/
def withNothing (body : List Byte) (s : State) (a : Answer) : Answer :=
  match body with
  | [] => a
  | _ => refuse .badLength s

/-! ### The part (11.2) -/

/-- IDENTIFY (R170). -/
def requestIdentify (body : List Byte) (s : State) : Answer :=
  withNothing body s (accept s (partData ++ [s.link.strapCode.zeroExtend 8]))

/-- CREDIT (R164, R171). -/
def requestCredit (body : List Byte) (s : State) : Answer :=
  match body with
  | [n] =>
    if n = 0 then refuse .badValue s
    else if 255 < s.link.credits.toNat + n.toNat then refuse .badValue s
    else
      let count := s.link.credits + n
      accept (s.updLink fun k => { k with credits := count }) [count]
  | _ => refuse .badLength s

/-- RESET_PART (R166, R172). -/
def requestResetPart (body : List Byte) (s : State) : Answer :=
  withNothing body s (accept (s.updLink fun k => { k with resetPending := true }) [])

/-! ### Lines (11.3) -/

/-- New parameters at a DOWN line; a rate change puts the receiver back in its search (R128, R134). -/
def LineBlock.configure (b : LineBlock) (p : LineParams) : LineBlock :=
  { b with
    guard := { b.guard with params := p }
    receiver := if p.rateCode = b.guard.params.rateCode then b.receiver else .reset }

/-- CONFIGURE_LINE (R128, R173). -/
def requestConfigureLine (body : List Byte) (s : State) : Answer :=
  match body with
  | [line, rate, timeout, guard, gap, missLimit, interleave, floor0, floor1, hold, low, high] =>
    match decodeLine line with
    | none => refuse .badValue s
    | some l =>
      let p : LineParams :=
        ⟨rate, timeout, guard, gap, missLimit, interleave, word16 floor0 floor1, hold, low, high⟩
      if (s.line l).guard.lineState != .down then refuse .wrongState s
      else if p.inRange then accept (s.updLine l fun b => b.configure p) []
      else refuse .badValue s
  | _ => refuse .badLength s

/-- The nine counters in the order of Table 7-5. -/
def LineCounters.bytes (c : LineCounters) : List Byte :=
  le16 c.exchangesStarted ++ le16 c.noReply ++ le16 c.badReply ++ le16 c.contention ++
    le16 c.noisyCharacters ++ le16 c.falseStarts ++ le16 c.duplicates ++ le16 c.faults ++
    le16 c.cyclesCompleted

/-- The reply body of QUERY_LINE (R130, R174, Table 12-4). -/
def queryLineBody (b : LineBlock) : List Byte :=
  b.guard.params.bytes ++ [b.guard.lineState.code, b.guard.faultReason.code, b.guard.recoveryCount] ++
    b.guard.counters.bytes ++ [countByte b.urgent.length, countByte b.normal.length] ++
    le16 b.scheduler.cycle ++ [yesNo b.discovery.active]

/-- QUERY_LINE (R130, R174). -/
def requestQueryLine (body : List Byte) (s : State) : Answer :=
  match body with
  | [line, clear] =>
    match decodeLine line, decodeYesNo clear with
    | some l, some c =>
      accept (if c then s.updCounters l fun _ => .zero else s) (queryLineBody (s.line l))
    | _, _ => refuse .badValue s
  | _ => refuse .badLength s

/-- A line leaves DOWN by START_LINE (R118). -/
def LineBlock.start (b : LineBlock) : LineBlock :=
  let b1 := b.enterStarting .request
  { b1 with guard := { b1.guard with recoveryCount := 0, faultReason := .none } }

/-- START_LINE (R20, R118, R175). -/
def requestStartLine (body : List Byte) (s : State) : Answer :=
  withLine body s fun l =>
    if (s.line l).guard.lineState != .down then refuse .wrongState s
    else
      let r := resetEntries l (s.updLine l LineBlock.start)
      accept r.1 [countByte r.2]

/-- Every QUEUED record of the line completes ABORTED; answers how many (R43, R44). -/
def abortQueued (l : Line) (s : State) : State × Nat :=
  completeQueued l (fun _ => true) .aborted s

/-- The guard and scheduler of a line that goes from RUNNING to STOPPING (R62, R125). -/
def LineBlock.enterStopping (b : LineBlock) : LineBlock :=
  { b with
    guard := { b.guard with lineState := .stopping }
    scheduler := { b.scheduler with running := false, floor := .stopped } }

/-- A run when its line goes STOPPING: pending while a step is in progress, else ended (R114). -/
def stopRun (l : Line) (s : State) : State :=
  let b := s.line l
  if b.scheduler.stepInProgress then
    s.updDiscovery l fun d =>
      if d.active && d.stopPending == .none then { d with stopPending := .lineStopped } else d
  else endRunPending l .lineStopped s

/-- STOP_LINE with an exchange in flight on a RUNNING line (R43, R114, R125); answers the records
aborted. -/
def stopRunning (l : Line) (s : State) : State × Nat :=
  let r := abortQueued l (s.updLine l LineBlock.enterStopping)
  (stopRun l r.1, r.2)

/-- STOP_LINE where the line goes DOWN at once (R43, R114, R125); answers the records aborted. -/
def stopAtOnce (l : Line) (s : State) : State × Nat :=
  let r := abortQueued l ((cutGuard l s).updLine l LineBlock.goDown)
  (endRunPending l .lineStopped r.1, r.2)

/-- STOP_LINE (R125, R176). -/
def requestStopLine (body : List Byte) (s : State) : Answer :=
  withLine body s fun l =>
    let b := s.line l
    match b.guard.lineState with
    | .down => refuse .wrongState s
    | .stopping => refuse .wrongState s
    | .running =>
      if b.engine == .idle then
        let r := stopAtOnce l s
        accept r.1 [countByte r.2, yesNo false]
      else
        let r := stopRunning l s
        accept r.1 [countByte r.2, yesNo true]
    | _ =>
      let r := stopAtOnce l s
      accept r.1 [countByte r.2, yesNo false]

/-- The exchange of a line that is reset: ABORTED, or its GUARD cut short, and a deferred removal of
its target, whose NODE report comes first (R18, R86, R147); answers 1 for a record aborted. -/
def abortExchange (l : Line) (s : State) : State × Nat :=
  match (s.line l).engine.unfixed with
  | some x =>
    (fixOutcome l .aborted (finishTarget x.carried s),
      match x.carried with
      | .transfer _ _ => 1
      | _ => 0)
  | none => (cutGuard l s, 0)

/-- The guard, pins and scheduler of a line that is reset; the cycle counter is kept (R49, R127). -/
def LineBlock.resetDown (b : LineBlock) : LineBlock :=
  { b.goDown with scheduler := { Scheduler.reset with cycle := b.scheduler.cycle } }

/-- RESET_LINE (R44, R49, R86, R114, R127, R177). -/
def requestResetLine (body : List Byte) (s : State) : Answer :=
  withLine body s fun l =>
    let x := abortExchange l s
    let r := abortQueued l x.1
    accept (endRunPending l .lineStopped (r.1.updLine l LineBlock.resetDown))
      [countByte (x.2 + r.2)]

/-! ### Nodes (11.4) -/

/-- The node address of a request's byte: 0, 126, 127 and above name none (Table 11-2). -/
def decodeAddress (b : Byte) : Option Address :=
  if 1 ≤ b.toNat && b.toNat ≤ 125 then some (b.extractLsb' 0 7) else none

/-- ADD_NODE with its fields taken apart (R5, R178). -/
def addNode (line address pollClass : Byte) (x : Option Identity) (s : State) : Answer :=
  match decodeLine line, decodeClass pollClass with
  | some l, some c =>
    match decodeAddress address with
    | none => refuse .badAddress s
    | some a =>
      if addressInUse l a s then refuse .addressInUse s
      else if (x.map fun x => identityInUse l x s).getD false then refuse .badValue s
      else
        match firstAllocatable s with
        | none => refuse .tableFull s
        | some i =>
          let s1 := s.setNode i ((s.node i).added l a c x)
          accept s1 (le16 (s1.handleOf i).number)
  | _, _ => refuse .badValue s

/-- ADD_NODE (R178). -/
def requestAddNode (body : List Byte) (s : State) : Answer :=
  match body with
  | [line, address, pollClass] => addNode line address pollClass none s
  | [line, address, pollClass, i0, i1, i2, i3] =>
    addNode line address pollClass (some (word32 i0 i1 i2 i3)) s
  | _ => refuse .badLength s

/-- The entry REMOVE_NODE leaves: FREE at once, or with removal pending (R17, R18). -/
def NodeEntry.removed (e : NodeEntry) (deferred : Bool) : NodeEntry :=
  if deferred then { e with removalPending := true }
  else { e with state := .free, removalPending := false, lastChange := .removed }

/-- REMOVE_NODE (R17, R18, R40, R179). -/
def requestRemoveNode (body : List Byte) (s : State) : Answer :=
  withHandle body s fun h =>
    let deferred := inFlightTo h.index s
    let e := s.node h.index
    let r := completeAimedAt e.line h.index .nodeGone (s.setNode h.index (e.removed deferred))
    accept r.1 [countByte r.2, yesNo deferred]

/-- Whether an action is refused by the entry's state (R180). -/
def NodeAction.wrongFor (a : NodeAction) (e : NodeEntry) : Bool :=
  match a with
  | .none => false
  | .park => e.state == .parked
  | .unpark => e.state != .parked

/-- The class change and the action, made together (R19). -/
def NodeEntry.setNode (e : NodeEntry) (c : Option PollClass) (a : NodeAction) : NodeEntry :=
  let e1 := { e with pollClass := c.getD e.pollClass }
  match a with
  | .none => e1
  | .park => e1.park
  | .unpark => e1.unpark

/-- SET_NODE (R19, R180). -/
def requestSetNode (body : List Byte) (s : State) : Answer :=
  match body with
  | [h0, h1, pollClass, action] =>
    match decodeClassChange pollClass, decodeAction action with
    | some c, some a =>
      if c.isNone && a == .none then refuse .badValue s
      else
        match lookupHandle (word16 h0 h1) s with
        | none => refuse .staleHandle s
        | some h =>
          let e := s.node h.index
          if a.wrongFor e then refuse .wrongState s
          else
            let e1 := e.setNode c a
            accept (s.setNode h.index e1) [e1.state.code, e1.pollClass.code]
    | _, _ => refuse .badValue s
  | _ => refuse .badLength s

/-- The flags byte of QUERY_NODE (12, after Table 12-4). -/
def nodeFlags (e : NodeEntry) : Byte :=
  flagBit 0 e.restartPending ||| flagBit 1 e.morePending ||| flagBit 2 e.noticePending

/-- The reply body of QUERY_NODE (R21, R181, Table 12-4). -/
def queryNodeBody (h : Handle) (e : NodeEntry) : List Byte :=
  le16 h.number ++ [e.state.code, lineCode e.line, e.address.zeroExtend 8] ++
    identityField e.identity ++
    [e.pollClass.code, countByte e.missRun, yesNo e.putToggle, yesNo e.acceptedToggle, nodeFlags e,
      e.changeCount, e.lastChange.code] ++ le16 e.goodReplies ++ le16 e.misses

/-- QUERY_NODE (R21, R181). -/
def requestQueryNode (body : List Byte) (s : State) : Answer :=
  withHandle body s fun h => accept s (queryNodeBody h (s.node h.index))

/-- The indexes LIST_NODES names (R21, R181). -/
def listedNodes (l : Line) (s : State) : List EntryIndex :=
  entryIndexes.filter fun i =>
    (s.node i).line == l && (s.node i).held && !(s.node i).removalPending

/-- The reply body of LIST_NODES (R21, R181, Table 12-4). -/
def listNodesBody (l : Line) (s : State) : List Byte :=
  countByte (listedNodes l s).length ::
    ((listedNodes l s).map fun i => le16 (s.handleOf i).number ++ [(s.node i).state.code]).flatten

/-- LIST_NODES (R21, R181). -/
def requestListNodes (body : List Byte) (s : State) : Answer :=
  withLine body s fun l => accept s (listNodesBody l s)

/-! ### Transfers (11.5) -/

/-- The FREE record of lowest index (R30). -/
def firstFreeRecord (s : State) : Option RecordIndex :=
  recordIndexes.find? fun r => (s.record r).state == .free

/-- Checks 5 to 7 of R182: the target of a PUT or TAKE, or the status that refuses it. -/
def judgeTarget (x : SubmitFields) (s : State) : Except Status (Option Handle) :=
  match x.target with
  | none => .ok none
  | some w =>
    match lookupHandle w s with
    | none => .error .staleHandle
    | some h =>
      let e := s.node h.index
      if e.state == .lost then .error .nodeLost
      else if e.line != x.line then .error .badValue
      else .ok (some h)

/-- The record an accepted SUBMIT fills (R30). -/
def SubmitFields.record (x : SubmitFields) (target : Option Handle) : TransferRecord where
  state := .queued
  tag := x.tag
  line := x.line
  target := target
  kind := x.kind
  priority := x.priority
  payload := x.payload
  retryBudget := x.retryBudget
  attempts := 0
  deadline := x.deadline
  deadlineTimer := x.deadline.map fun d => d.toNat * millisecond
  result := none
  replyData := none
  nakReason := none

/-- The record joins its queue; the reply gives its place before any pick, and a scheduler that waits
makes its choice (R30, R61, R182). -/
def acceptSubmit (x : SubmitFields) (target : Option Handle) (r : RecordIndex) (s : State) :
    Answer :=
  let s1 := queueTail r (s.setRecord r (x.record target))
  accept (choose x.line s1) (le16 x.tag ++ [countByte (queuePosition r s1)])

/-- Checks 2 to 7 of R182. -/
def submit (x : SubmitFields) (s : State) : Answer :=
  match (s.line x.line).guard.lineState with
  | .down => refuse .lineDown s
  | .stopping => refuse .lineDown s
  | _ =>
    match firstFreeRecord s with
    | none => refuse .poolFull s
    | some r =>
      if (holderOf x.tag s).isSome then refuse .tagInUse s
      else
        match judgeTarget x s with
        | .error st => refuse st s
        | .ok target => acceptSubmit x target r s

/-- SUBMIT (R29, R30, R182). -/
def requestSubmit (body : List Byte) (s : State) : Answer :=
  match body with
  | line :: t0 :: t1 :: kind :: priority :: h0 :: h1 :: budget :: d0 :: d1 :: payload =>
    if Config.payloadMaximum < payload.length then refuse .badLength s
    else
      match decodeSubmit line kind priority budget (word16 t0 t1) (word16 h0 h1) (word16 d0 d1)
          payload with
      | none => refuse .badValue s
      | some x => submit x s
  | _ => refuse .badLength s

/-- CANCEL (R42, R183). -/
def requestCancel (body : List Byte) (s : State) : Answer :=
  withTag body s fun r =>
    match (s.record r).state with
    | .queued => accept (completeFromQueue r .cancelled s) (le16 (s.record r).tag)
    | .inFlight => refuse .inFlight s
    | _ => refuse .unknownTag s

/-- The reply body of QUERY_TRANSFER (R47, R183, Table 12-4). -/
def queryTransferBody (r : RecordIndex) (s : State) : List Byte :=
  let x := s.record r
  [x.state.code, x.kind.code, lineCode x.line, x.priority.code, countByte x.attempts,
    countByte (queuePosition r s), resultCode x.result]

/-- QUERY_TRANSFER (R47, R183). -/
def requestQueryTransfer (body : List Byte) (s : State) : Answer :=
  withTag body s fun r => accept s (queryTransferBody r s)

/-! ### Discovery (11.6) -/

/-- The record of a unit whose run starts (R101). -/
def Discovery.started (d : Discovery) : Discovery :=
  { d with
    active := true
    stopPending := .none
    stack := [.all]
    bid := none
    assignment := none
    found := 0
    reassigned := 0
    clashes := 0
    unresponsive := 0 }

/-- DISCOVER; it prompts a scheduler that waits (R61, R101, R184). -/
def requestDiscover (body : List Byte) (s : State) : Answer :=
  withLine body s fun l =>
    let b := s.line l
    if b.discovery.active then refuse .discoveryActive s
    else if b.guard.lineState != .running then refuse .lineDown s
    else accept (choose l (s.updDiscovery l Discovery.started)) []

/-- STOP_DISCOVERY (R113, R184). -/
def requestStopDiscovery (body : List Byte) (s : State) : Answer :=
  withLine body s fun l =>
    let b := s.line l
    if !b.discovery.active || b.discovery.stopPending != .none then refuse .wrongState s
    else if b.scheduler.stepInProgress then
      accept (s.updDiscovery l fun d => { d with stopPending := .cancelled }) [yesNo false]
    else accept (endRun l .cancelled s) [yesNo true]

/-! ### The request processor and the inbox -/

/-- The answer to a frame by its kind (R162, Table 12-1). -/
def answerTo (kind : Byte) (body : List Byte) (s : State) : Answer :=
  match kind.toNat with
  | 0x01 => requestIdentify body s
  | 0x02 => requestConfigureLine body s
  | 0x03 => requestQueryLine body s
  | 0x04 => requestStartLine body s
  | 0x05 => requestStopLine body s
  | 0x06 => requestResetLine body s
  | 0x07 => requestAddNode body s
  | 0x08 => requestRemoveNode body s
  | 0x09 => requestSetNode body s
  | 0x0A => requestQueryNode body s
  | 0x0B => requestListNodes body s
  | 0x0C => requestSubmit body s
  | 0x0D => requestCancel body s
  | 0x0E => requestQueryTransfer body s
  | 0x0F => requestDiscover body s
  | 0x10 => requestStopDiscovery body s
  | 0x11 => requestCredit body s
  | 0x12 => requestResetPart body s
  | _ => (s, [Status.unknownKind.code, kind])

/-- The kind of the reply to a frame (R162). -/
def answerKind (kind : Byte) : Byte := if isRequestKind kind then replyKind kind else 0xFF

/-- An entry joins the inbox (R161). -/
def joinInbox (e : InboxEntry) (s : State) : State :=
  s.updLink fun k => { k with inbox := k.inbox ++ [e] }

/-- A good frame finds four entries held (R161). -/
def overrunInbox (seq : Byte) (s : State) : State :=
  raiseLinkNotice
    (fun n => { n with inboxOverruns := satInc n.inboxOverruns, lastDiscarded := some seq }) s

/-- A good frame is offered to the inbox and, unless a reset is pending, taken as it arrives: `take`
answers it and its entry is READY (R161, R162, R166). -/
def offer (kind seq : Byte) (body : List Byte) (take : List Byte → State → Answer) (s : State) :
    State :=
  if s.link.inbox.length < Config.inboxEntries then
    if s.link.resetPending then joinInbox ⟨kind, seq, body, .waiting⟩ s
    else
      let a := take body s
      joinInbox ⟨kind, seq, body, .ready ⟨answerKind kind, seq, a.2⟩⟩ a.1
  else overrunInbox seq s

/-- IDENTIFY. -/
def execIdentify (seq : Byte) (body : List Byte) (s : State) : Host.Outcome State Fault Refusal :=
  command (offer 0x01 seq body requestIdentify) s

/-- CONFIGURE_LINE. -/
def execConfigureLine (seq : Byte) (body : List Byte) (s : State) :
    Host.Outcome State Fault Refusal :=
  command (offer 0x02 seq body requestConfigureLine) s

/-- QUERY_LINE. -/
def execQueryLine (seq : Byte) (body : List Byte) (s : State) : Host.Outcome State Fault Refusal :=
  command (offer 0x03 seq body requestQueryLine) s

/-- START_LINE. -/
def execStartLine (seq : Byte) (body : List Byte) (s : State) : Host.Outcome State Fault Refusal :=
  command (offer 0x04 seq body requestStartLine) s

/-- STOP_LINE. -/
def execStopLine (seq : Byte) (body : List Byte) (s : State) : Host.Outcome State Fault Refusal :=
  command (offer 0x05 seq body requestStopLine) s

/-- RESET_LINE. -/
def execResetLine (seq : Byte) (body : List Byte) (s : State) : Host.Outcome State Fault Refusal :=
  command (offer 0x06 seq body requestResetLine) s

/-- ADD_NODE. -/
def execAddNode (seq : Byte) (body : List Byte) (s : State) : Host.Outcome State Fault Refusal :=
  command (offer 0x07 seq body requestAddNode) s

/-- REMOVE_NODE. -/
def execRemoveNode (seq : Byte) (body : List Byte) (s : State) : Host.Outcome State Fault Refusal :=
  command (offer 0x08 seq body requestRemoveNode) s

/-- SET_NODE. -/
def execSetNode (seq : Byte) (body : List Byte) (s : State) : Host.Outcome State Fault Refusal :=
  command (offer 0x09 seq body requestSetNode) s

/-- QUERY_NODE. -/
def execQueryNode (seq : Byte) (body : List Byte) (s : State) : Host.Outcome State Fault Refusal :=
  command (offer 0x0A seq body requestQueryNode) s

/-- LIST_NODES. -/
def execListNodes (seq : Byte) (body : List Byte) (s : State) : Host.Outcome State Fault Refusal :=
  command (offer 0x0B seq body requestListNodes) s

/-- SUBMIT. -/
def execSubmit (seq : Byte) (body : List Byte) (s : State) : Host.Outcome State Fault Refusal :=
  command (offer 0x0C seq body requestSubmit) s

/-- CANCEL. -/
def execCancel (seq : Byte) (body : List Byte) (s : State) : Host.Outcome State Fault Refusal :=
  command (offer 0x0D seq body requestCancel) s

/-- QUERY_TRANSFER. -/
def execQueryTransfer (seq : Byte) (body : List Byte) (s : State) :
    Host.Outcome State Fault Refusal :=
  command (offer 0x0E seq body requestQueryTransfer) s

/-- DISCOVER. -/
def execDiscover (seq : Byte) (body : List Byte) (s : State) : Host.Outcome State Fault Refusal :=
  command (offer 0x0F seq body requestDiscover) s

/-- STOP_DISCOVERY. -/
def execStopDiscovery (seq : Byte) (body : List Byte) (s : State) :
    Host.Outcome State Fault Refusal :=
  command (offer 0x10 seq body requestStopDiscovery) s

/-- CREDIT. -/
def execCredit (seq : Byte) (body : List Byte) (s : State) : Host.Outcome State Fault Refusal :=
  command (offer 0x11 seq body requestCredit) s

/-- RESET_PART. -/
def execResetPart (seq : Byte) (body : List Byte) (s : State) : Host.Outcome State Fault Refusal :=
  command (offer 0x12 seq body requestResetPart) s

/-- UNKNOWN_KIND: a good frame of a kind that no request has (R162); a request's kind given here is
that request (log entry 23). -/
def execUnknownKind (kind seq : Byte) (body : List Byte) (s : State) :
    Host.Outcome State Fault Refusal :=
  command (offer kind seq body (answerTo kind)) s

end Sys2Proof.Machine
end

