-- ==== Sys2Proof/Machine/Resets.lean ====
section
/-! DEFINITION. The resets of the whole part (R166, R187): POWER_ON_RESET, RESET_PIN_LOW and
RESET_PIN_RELEASE, and the reset that RESET_PART's reply ends in. -/

namespace Sys2Proof.Machine

/-- Every block at its reset values with the straps sampled as given; the RX levels and the queue of
commands stay. -/
def blocksReset (straps : BitVec 2) (pin : ResetPin) (s : State) : State :=
  State.blocksReset straps s.lineA.pins.rx s.lineB.pins.rx pin s.pending

/-- The end of a reset: the straps are sampled and the ANNOUNCE is due with its cause (R165). -/
def endReset (cause : ResetCause) (straps : BitVec 2) (s : State) : State :=
  (blocksReset straps .high s).updLink fun k => { k with announcePending := some cause }

/-- POWER_ON_RESET, to its end (R187); with RESET still low the part stays in reset, and the release
gives cause POWER. -/
def execPowerOnReset (straps : BitVec 2) (s : State) : Host.Outcome State Fault Refusal :=
  match s.resetPin with
  | .low _ => .next (blocksReset straps (.low true) s)
  | .high => .next (arbitrate (endReset .power straps s))

/-- RESET_PIN_LOW (R187): every block is reset and held; the straps are sampled at the release. -/
def execResetPinLow (s : State) : Host.Outcome State Fault Refusal :=
  match s.resetPin with
  | .low _ => .next s
  | .high => .next (blocksReset s.link.strapCode (.low false) s)

/-- The cause a release gives (R187). -/
def releaseCause (powerOverlap : Bool) : ResetCause := if powerOverlap then .power else .pin

/-- RESET_PIN_RELEASE (R187). -/
def execResetPinRelease (straps : BitVec 2) (s : State) : Host.Outcome State Fault Refusal :=
  match s.resetPin with
  | .low powerOverlap => .next (arbitrate (endReset (releaseCause powerOverlap) straps s))
  | .high => .next s

end Sys2Proof.Machine
end

