-- ==== Sys2Proof/Machine/HostLink.lean ====
section
/-! DEFINITION. The host link's bytes and transmissions (10): HOST_BYTE_RECEIVED,
HOST_FRAME_RECEIVED, BAD_FRAME_LENGTH, BYTE_FRAMING_ERROR, HOST_GAP_TIMEOUT, HOST_BREAK,
HOST_START_VERIFIED, REPLY_SENT, REPORT_SENT and ANNOUNCE_SENT. -/

namespace Sys2Proof.Machine

/-! ### Inbound -/

/-- The parser moves on within a frame and the gap timer is started again (R158). -/
def continueFrame (p : Parser) (s : State) : State :=
  s.updLink fun k => { k with parser := p, gapTimer := some hostGapTime }

/-- The parser is in HUNT with no frame in progress and the gap timer stopped (R158, R160). -/
def dropFrame (s : State) : State :=
  s.updLink fun k => { k with parser := .hunt, gapTimer := none }

/-- A frame is abandoned: HUNT, a framing failure, the LINK notice (R157, R158, R159). -/
def abandonFrame (s : State) : State :=
  raiseLinkNotice (fun n => { n with framingFailures := satInc n.framingFailures }) (dropFrame s)

/-- A frame's end: a good one is offered to the inbox, another counted (R158). -/
def judgeFrame (f : InFrame) (check : Word16) (s : State) : State :=
  if check = f.check then
    match f.bytes with
    | kind :: seq :: body => offer kind seq body (answerTo kind) s
    | _ => s
  else raiseLinkNotice (fun n => { n with checkFailures := satInc n.checkFailures }) s

/-- A byte of the body is kept and the check run over it (R158). -/
def InFrame.keep (f : InFrame) (b : Byte) : InFrame :=
  { f with bytes := f.bytes ++ [b], check := crcByte f.check b }

/-- The parser after a byte of the body (R158). -/
def afterBodyByte (f : InFrame) : Parser :=
  if f.bytes.length < f.length then .body f else .check f none

/-- The parser takes a received byte by its state (the table of R158). -/
def takeByte (b : Byte) (s : State) : State :=
  match s.link.parser with
  | .hunt => if b = 0xC3 then continueFrame .length s else s
  | .length =>
    if isBadLength b then abandonFrame s
    else continueFrame (.body ⟨b.toNat, [], crcByte crcStart b⟩) s
  | .body f => continueFrame (afterBodyByte (f.keep b)) s
  | .check f none => continueFrame (.check f (some b)) s
  | .check f (some low) => judgeFrame f (word16 low b) (dropFrame s)

/-- The receiver is back at its search for a start (R157). -/
def searchStart (s : State) : State := s.updLink fun k => { k with receiver := .search }

/-- The stop bit is decided low and HRX is watched (R157); the byte's verified start has stopped the gap
timer (R159). -/
def watchStop (s : State) : State :=
  s.updLink fun k => { k with receiver := .stopLow, gapTimer := none }

/-- A byte is decided bit by bit (R157): with the start high it is dropped without a count; with the stop
high it is received and handed to the parser; with the stop low nothing is handed over and HRX is
watched. -/
def decideByte (byte : Samples 10) (s : State) : State :=
  if !byte.startLow then searchStart s
  else if byte.stopHigh then takeByte byte.byteData (searchStart s)
  else watchStop s

/-- A byte reaches the receiver, but for one that still watches HRX after a low stop bit (R157). -/
def receiveByte (byte : Samples 10) (s : State) : State :=
  match s.link.receiver with
  | .search => decideByte byte s
  | .byte => decideByte byte s
  | .stopLow => s

/-- HOST_BYTE_RECEIVED (R157, R158). -/
def execHostByteReceived (byte : Samples 10) (s : State) : Host.Outcome State Fault Refusal :=
  command (receiveByte byte) s

/-- The byte is the second check byte, where one is due (R158). -/
def endFrame (check : Samples 10) (s : State) : State :=
  match s.link.parser with
  | .check _ (some _) => receiveByte check s
  | _ => s

/-- HOST_FRAME_RECEIVED (R158). -/
def execHostFrameReceived (check : Samples 10) (s : State) : Host.Outcome State Fault Refusal :=
  command (endFrame check) s

/-- The byte is a bad length, where a length is due (R158). -/
def rejectLength (length : Samples 10) (s : State) : State :=
  match s.link.parser with
  | .length => if isBadLength length.byteData then receiveByte length s else s
  | _ => s

/-- BAD_FRAME_LENGTH (R158). -/
def execBadFrameLength (length : Samples 10) (s : State) : Host.Outcome State Fault Refusal :=
  command (rejectLength length) s

/-- A byte framing error: in HUNT nothing is counted (R157). -/
def failByte (s : State) : State :=
  match s.link.parser with
  | .hunt => searchStart s
  | _ => abandonFrame (searchStart s)

/-- BYTE_FRAMING_ERROR (R157). -/
def execByteFramingError (s : State) : Host.Outcome State Fault Refusal :=
  command failByte s

/-- The gap timer passes 10 ms (R159). -/
def expireHostGap (s : State) : State :=
  match s.link.gapTimer with
  | some _ => abandonFrame s
  | none => s

/-- HOST_GAP_TIMEOUT (R159). -/
def execHostGapTimeout (s : State) : Host.Outcome State Fault Refusal :=
  command expireHostGap s

/-- A break drops a frame in progress and counts nothing (R160). -/
def takeBreak (s : State) : State := searchStart (dropFrame s)

/-- HOST_BREAK (R160). -/
def execHostBreak (s : State) : Host.Outcome State Fault Refusal :=
  outOfReset takeBreak s

/-- A start found in the search is verified and stops the gap timer (R157, R159). -/
def verifyHostStart (s : State) : State :=
  match s.link.receiver with
  | .search => s.updLink fun k => { k with receiver := .byte, gapTimer := none }
  | .byte => s
  | .stopLow => s

/-- HOST_START_VERIFIED (R159). -/
def execHostStartVerified (s : State) : Host.Outcome State Fault Refusal :=
  outOfReset verifyHostStart s

/-! ### Outbound -/

/-- The transmission ends (R163). -/
def idleTransmitter (s : State) : State := s.updLink fun k => { k with transmitter := none }

/-- The entry whose reply is in transmission (R161). -/
def EntryState.isSending : EntryState → Bool
  | .sending _ => true
  | _ => false

/-- The SENDING entry is freed (R161). -/
def freeEntry (s : State) : State :=
  s.updLink fun k => { k with inbox := k.inbox.eraseP fun e => e.state.isSending }

/-- The message is RESET_PART's reply, ACCEPTED (R166, R172). -/
def Message.endsPart (m : Message) : Bool :=
  m.kind == replyKind 0x12 && m.body == acceptance []

/-- The last byte of a reply is sent: its entry is freed, or the part resets (R161, R166). -/
def finishReply (straps : BitVec 2) (s : State) : State :=
  match s.link.transmitter with
  | some (.reply m) =>
    if s.link.resetPending && m.endsPart then endReset .request straps s
    else freeEntry (idleTransmitter s)
  | _ => s

/-- REPLY_SENT (R161). -/
def execReplySent (straps : BitVec 2) (s : State) : Host.Outcome State Fault Refusal :=
  command (finishReply straps) s

/-- What the end of a report frees (R46, R98, R150). -/
def freeSource (src : Source) (s : State) : State :=
  match src with
  | .completion r => s.setRecord r { s.record r with state := .free }
  | .data k => s.setSlot k { s.slot k with state := .free }
  | _ => s

/-- The last byte of a report is sent (R150). -/
def finishReport (s : State) : State :=
  match s.link.transmitter with
  | some (.report src _) => freeSource src (idleTransmitter s)
  | _ => s

/-- REPORT_SENT (R150). -/
def execReportSent (s : State) : Host.Outcome State Fault Refusal :=
  command finishReport s

/-- The last byte of the ANNOUNCE is sent (R165). -/
def finishAnnounce (s : State) : State :=
  match s.link.transmitter with
  | some (.announce _) => idleTransmitter s
  | _ => s

/-- ANNOUNCE_SENT (R165). -/
def execAnnounceSent (s : State) : Host.Outcome State Fault Refusal :=
  command finishAnnounce s

end Sys2Proof.Machine
end

