-- ==== Sys2Proof/Machine/Dispatch.lean ====
section
/-! DEFINITION. The dispatch: one arm per command, each one direct call of its meaning. -/

namespace Sys2Proof.Machine

/-- A command's effect on everything but the queue of commands. -/
def exec (i : Instr) (s : State) : Host.Outcome State Fault Refusal :=
  match i with
  | .identify seq body => Sys2Proof.Machine.execIdentify seq body s
  | .configureLine seq body => Sys2Proof.Machine.execConfigureLine seq body s
  | .queryLine seq body => Sys2Proof.Machine.execQueryLine seq body s
  | .startLine seq body => Sys2Proof.Machine.execStartLine seq body s
  | .stopLine seq body => Sys2Proof.Machine.execStopLine seq body s
  | .resetLine seq body => Sys2Proof.Machine.execResetLine seq body s
  | .addNode seq body => Sys2Proof.Machine.execAddNode seq body s
  | .removeNode seq body => Sys2Proof.Machine.execRemoveNode seq body s
  | .setNode seq body => Sys2Proof.Machine.execSetNode seq body s
  | .queryNode seq body => Sys2Proof.Machine.execQueryNode seq body s
  | .listNodes seq body => Sys2Proof.Machine.execListNodes seq body s
  | .submit seq body => Sys2Proof.Machine.execSubmit seq body s
  | .cancel seq body => Sys2Proof.Machine.execCancel seq body s
  | .queryTransfer seq body => Sys2Proof.Machine.execQueryTransfer seq body s
  | .discover seq body => Sys2Proof.Machine.execDiscover seq body s
  | .stopDiscovery seq body => Sys2Proof.Machine.execStopDiscovery seq body s
  | .credit seq body => Sys2Proof.Machine.execCredit seq body s
  | .resetPart seq body => Sys2Proof.Machine.execResetPart seq body s
  | .unknownKind kind seq body => Sys2Proof.Machine.execUnknownKind kind seq body s
  | .hostFrameReceived check => Sys2Proof.Machine.execHostFrameReceived check s
  | .badFrameLength length => Sys2Proof.Machine.execBadFrameLength length s
  | .byteFramingError => Sys2Proof.Machine.execByteFramingError s
  | .hostGapTimeout => Sys2Proof.Machine.execHostGapTimeout s
  | .hostBreak => Sys2Proof.Machine.execHostBreak s
  | .replySent straps => Sys2Proof.Machine.execReplySent straps s
  | .reportSent => Sys2Proof.Machine.execReportSent s
  | .announceSent => Sys2Proof.Machine.execAnnounceSent s
  | .powerOnReset straps => Sys2Proof.Machine.execPowerOnReset straps s
  | .resetPinLow => Sys2Proof.Machine.execResetPinLow s
  | .resetPinRelease straps => Sys2Proof.Machine.execResetPinRelease straps s
  | .frameSent l => Sys2Proof.Machine.execFrameSent l s
  | .echoContention l => Sys2Proof.Machine.execEchoContention l s
  | .lineCharacterReceived l bits => Sys2Proof.Machine.execLineCharacterReceived l bits s
  | .falseStart l => Sys2Proof.Machine.execFalseStart l s
  | .replyComplete l bits => Sys2Proof.Machine.execReplyComplete l bits s
  | .replyWindowExpiry l => Sys2Proof.Machine.execReplyWindowExpiry l s
  | .gapLimitExceeded l => Sys2Proof.Machine.execGapLimitExceeded l s
  | .guardExpiry l => Sys2Proof.Machine.execGuardExpiry l s
  | .deadlineExpiry record => Sys2Proof.Machine.execDeadlineExpiry record s
  | .cycleFloorExpiry l => Sys2Proof.Machine.execCycleFloorExpiry l s
  | .wakeBreakEnd l => Sys2Proof.Machine.execWakeBreakEnd l s
  | .quietComplete l => Sys2Proof.Machine.execQuietComplete l s
  | .dominantInQuiet l => Sys2Proof.Machine.execDominantInQuiet l s
  | .stuckDominant l => Sys2Proof.Machine.execStuckDominant l s
  | .faultHoldExpiry l => Sys2Proof.Machine.execFaultHoldExpiry l s
  | .recoveryWatchComplete l => Sys2Proof.Machine.execRecoveryWatchComplete l s
  | .dominantInRecoveryWatch l => Sys2Proof.Machine.execDominantInRecoveryWatch l s
  | .hostByteReceived byte => Sys2Proof.Machine.execHostByteReceived byte s
  | .hostStartVerified => Sys2Proof.Machine.execHostStartVerified s
  | .startVerified l noisy => Sys2Proof.Machine.execStartVerified l noisy s
  | .receiverArmed l => Sys2Proof.Machine.execReceiverArmed l s
  | .lineLevelChange l level => Sys2Proof.Machine.execLineLevelChange l level s

end Sys2Proof.Machine
end

