-- ==== Sys2Proof/Safety.lean ====
section
/-! DEFINITION. What the statements speak of: the legal states of each block (the invariants), and the
words in which a command's result is written out. -/

namespace Sys2Proof.Machine

/-! ### Words of the statements -/

/-- The part takes a request as it arrives: out of reset, no reset pending, room in the inbox (R161,
R162; log entry 4). -/
abbrev Ready (s : State) : Prop :=
  s.resetPin = .high ∧ s.link.resetPending = false ∧ s.link.inbox.length < 4

/-- A new READY entry with its reply at the inbox's tail, and the arbiter's choice after it (R161 to
R163; log entries 4 and 5). -/
def answered (kind seq : Byte) (body reply : List Byte) (s : State) : State :=
  arbitrate { s with link := { s.link with
    inbox := s.link.inbox ++ [⟨kind, seq, body, .ready ⟨kind + 0x80, seq, reply⟩⟩] } }

/-- Sources that enter a queue one after another, each unless it is in it (R144, R147). -/
def enqueueAll (sources queue : List Source) : List Source :=
  sources.foldl (fun q x => if x ∈ q then q else q ++ [x]) queue

/-- The other line. -/
def otherLine : Line → Line
  | .A => .B
  | .B => .A

/-- The commands of a request's row with its kind (Table 12-1). -/
def requestRows (seq : Byte) (body : List Byte) : List (Byte × Instr) :=
  [(0x01, .identify seq body), (0x02, .configureLine seq body), (0x03, .queryLine seq body),
    (0x04, .startLine seq body), (0x05, .stopLine seq body), (0x06, .resetLine seq body),
    (0x07, .addNode seq body), (0x08, .removeNode seq body), (0x09, .setNode seq body),
    (0x0A, .queryNode seq body), (0x0B, .listNodes seq body), (0x0C, .submit seq body),
    (0x0D, .cancel seq body), (0x0E, .queryTransfer seq body), (0x0F, .discover seq body),
    (0x10, .stopDiscovery seq body), (0x11, .credit seq body), (0x12, .resetPart seq body)]

/-- The command that a good frame of a kind is (R162, Table 12-1). -/
def commandOf (kind seq : Byte) (body : List Byte) : Instr :=
  match (requestRows seq body).find? fun p => p.1 == kind with
  | some p => p.2
  | none => .unknownKind kind seq body

/-- Body lengths a request's kind allows (Table 12-3). -/
def lengthFits (kind : Byte) (n : Nat) : Bool :=
  match kind.toNat with
  | 0x01 => n == 0
  | 0x02 => n == 12
  | 0x03 => n == 2
  | 0x07 => n == 3 || n == 7
  | 0x08 => n == 2
  | 0x09 => n == 4
  | 0x0A => n == 2
  | 0x0C => 10 ≤ n && n ≤ 58
  | 0x0D => n == 2
  | 0x0E => n == 2
  | 0x12 => n == 0
  | _ => n == 1

/-- The bytes of a node's reply (Tables 4-1 and 4-3): head, control, length, payload, check. -/
def replyBytes (source : Address) (contents : NodeReply) : List Byte :=
  let control : Byte := match contents with
    | .ack => 8
    | .nak _ => 9
    | .data toggle more _ => 10 ||| flagBit 4 toggle ||| flagBit 6 more
    | .empty more => 11 ||| flagBit 6 more
    | .bid _ => 12
  let payload : List Byte := match contents with
    | .nak .busy => [1]
    | .nak .refused => [2]
    | .data _ _ p => p
    | .bid x => le32 x
    | _ => []
  let covered := source.zeroExtend 8 :: control :: BitVec.ofNat 8 payload.length :: payload
  covered ++ le16 (crc covered)

/-- A command after an outcome, where the part has gone on. -/
def andThen (o : Host.Outcome State Fault Refusal) (c : Instr) : Host.Outcome State Fault Refusal :=
  match o with
  | .next t => exec c t
  | o => o

/-- Several bytes on HRX one after another, each with its start verified and then its ten bits. -/
def receiveBytes (bytes : List Byte) (s : State) : Host.Outcome State Fault Refusal :=
  bytes.foldl
    (fun o b => andThen (andThen o .hostStartVerified) (.hostByteReceived (.ofByte b)))
    (.next s)

/-- An entry whose notice has been raised once more (R24). -/
def noted (e : NodeEntry) : NodeEntry :=
  { e with noticePending := true, changeCount := satInc e.changeCount }

/-- A record that has completed with a result (R45). -/
def completedWith (result : TransferResult) (x : TransferRecord) : TransferRecord :=
  { x with state := .completed, result := some result, deadlineTimer := none }

/-- A line's queued records, URGENT first, head to tail (R45). -/
def LineBlock.queued (b : LineBlock) : List RecordIndex := b.urgent ++ b.normal

/-- The discovery record after a line event that ends an active run: a stop already pending gives the
reason, else the event (R112, R114, R115). -/
def afterRun (d : Discovery) (reason : StopReason) : Discovery :=
  if d.active then
    { d with
      active := false, stopPending := .none, stack := [], bid := none, assignment := none
      noticePending := true
      lastResult := some ⟨match d.stopPending with
        | .none => reason
        | .cancelled => .cancelled
        | .lineStopped => .lineStopped, d.found, d.reassigned, d.clashes, d.unresponsive⟩ }
  else d

/-- The entry of index `i` when a run ends: a claim of it is released (R22, R112). -/
def afterRunNode (d : Discovery) (i : EntryIndex) (e : NodeEntry) : NodeEntry :=
  if d.active && d.assignment.any (fun a => a.claimed && a.entry == i) then
    { e with assignHold := false }
  else e

/-- The source that the end of a run enqueues (R115). -/
def runSources (l : Line) (d : Discovery) : List Source := if d.active then [.discovery l] else []

/-- The line with an exchange handed to its engine: SENDING from the first character, the driver on, the
exchange counted (R63, R73); switching DE on ends a dominant run (R120). -/
def LineBlock.sends (b : LineBlock) (x : Exchange) : LineBlock :=
  { b with
    engine := .sending x 0 false
    pins := { b.pins with tx := .frame, de := true }
    guard := { b.guard with
      stuckRun := none
      counters := { b.guard.counters with
        exchangesStarted := satInc b.guard.counters.exchangesStarted } } }

/-- The dominant run of a line whose driver is released: one begins where the level is dominant and
stuck-dominant is watched for (R120). -/
def LineBlock.runOnRelease (b : LineBlock) : Timer :=
  if (b.guard.lineState = .running ∨ b.guard.lineState = .stopping) ∧ b.pins.rx = .dominant then
    some (4 * charTime b.guard.params)
  else none

/-- What no event of line `l` touches: the other line, the link, the RESET pin, the commands. -/
abbrev KeptOutside (l : Line) (s u : State) : Prop :=
  u.line (otherLine l) = s.line (otherLine l) ∧ u.link = s.link ∧ u.resetPin = s.resetPin ∧
    u.pending = s.pending

/-- The line has been taken from `s` to DOWN in `u`, its engine IDLE: DE released, the timers and the
scheduler stopped (`scheduler` is what it then holds), every queued record ABORTED, a run ended
(R43, R44, R62, R112, R114, R117, R125, R127). -/
abbrev TakenDown (l : Line) (scheduler : Scheduler) (s u : State) : Prop :=
  let b := s.line l
  u.line l = { b with
    guard := { b.guard with
      lineState := .down, stopAfterHold := false, faultReason := .none, holdTimer := none
      watch := .stopped, stuckRun := none }
    pins := { b.pins with tx := .rest, de := false }
    scheduler := scheduler
    discovery := afterRun b.discovery .lineStopped
    urgent := []
    normal := [] } ∧
  (∀ r : RecordIndex, u.record r =
    if r ∈ b.queued then completedWith .aborted (s.record r) else s.record r) ∧
  (∀ i : EntryIndex, u.node i = afterRunNode b.discovery i (s.node i)) ∧
  u.reports = enqueueAll (b.queued.map Source.completion ++ runSources l b.discovery) s.reports ∧
  u.slots = s.slots ∧ KeptOutside l s u

/-! ### Report queue and notices (09) -/

/-- No source has two entries, and a notice is pending exactly while its source is queued (R144). -/
abbrev NoticesOk (s : State) : Prop :=
  s.reports.Nodup ∧
    (∀ i : EntryIndex, (s.node i).noticePending = true ↔ Source.node i ∈ s.reports) ∧
    (s.lineA.guard.noticePending = true ↔ Source.line .A ∈ s.reports) ∧
    (s.lineB.guard.noticePending = true ↔ Source.line .B ∈ s.reports) ∧
    (s.lineA.discovery.noticePending = true ↔ Source.discovery .A ∈ s.reports) ∧
    (s.lineB.discovery.noticePending = true ↔ Source.discovery .B ∈ s.reports) ∧
    (s.link.notice.pending = true ↔ Source.link ∈ s.reports)

/-! ### Node table (01) -/

/-- Two entries that occupy one line's address are one entry (R6); assign hold is on FREE entries and
removal pending on held ones (R18, R22); the change count is 0 exactly with no notice pending (R24,
R25). -/
abbrev NodesOk (s : State) : Prop :=
  (∀ i j : EntryIndex, (s.node i).occupies (s.node j).line = true →
    (s.node j).occupies (s.node j).line = true → (s.node i).address = (s.node j).address → i = j) ∧
  (∀ i : EntryIndex, (s.node i).assignHold = true → (s.node i).state = .free) ∧
  (∀ i : EntryIndex, (s.node i).removalPending = true → (s.node i).state ≠ .free) ∧
  (∀ i : EntryIndex, (s.node i).changeCount = 0 ↔ (s.node i).noticePending = false)

/-! ### Discovery (06) -/

/-- The shape of a range stack (R106): lengths fall strictly from the range under the top, which may
equal its sibling; bits beyond a length are 0 and failure counts below 3 (Table 6-1, R110). -/
abbrev StackOk (d : Discovery) : Prop :=
  (∀ r ∈ d.stack, r.length ≤ 32 ∧ r.value <<< r.length = 0#32 ∧ r.failures < 3) ∧
    (∀ r ∈ d.stack.tail, 1 ≤ r.length) ∧
    (∀ top ∈ d.stack.head?, ∀ r ∈ d.stack.tail, r.length ≤ top.length) ∧
    d.stack.tail.Pairwise fun x y => y.length < x.length

/-- An inactive unit holds nothing of a run (R112). -/
abbrev RunOk (d : Discovery) : Prop :=
  d.active = false → d.stopPending = .none ∧ d.stack = [] ∧ d.bid = none ∧ d.assignment = none

/-! ### A line (03, 04, 06, 07) -/

/-- The engine is SENDING. -/
def Engine.isSending : Engine → Bool
  | .sending _ _ _ => true
  | _ => false

/-- The engine is in GUARD or IDLE. -/
def Engine.isFixed : Engine → Bool
  | .idle => true
  | .guard _ _ _ => true
  | _ => false

/-- What the watch timer times. -/
def Watch.isWakeBreak : Watch → Bool
  | .wakeBreak _ => true
  | _ => false

/-- The states in which each setting of the watch timer is found (R119, R124). -/
def LineState.watchFits : LineState → Watch → Bool
  | .starting, .wakeBreak _ => true
  | .starting, .quiet _ => true
  | .recovering, .recovery _ => true
  | .starting, _ => false
  | .recovering, _ => false
  | _, .stopped => true
  | _, _ => false

/-- The states in which each engine state is found (R54, R85, R86, R126). -/
def LineState.engineFits : LineState → Engine → Bool
  | .running, _ => true
  | .stopping, e => e != .idle
  | .faulted, e => e.isFixed
  | _, e => e == .idle

/-- What TX carries: with DE off it rests (R132). -/
def LineBlock.txExpected (b : LineBlock) : TxDrive :=
  if b.pins.de then if b.engine.isSending then .frame else .wakeBreak else .rest

/-- The echo check is within the frame; in SENDING with DE off the last echo alone is outstanding, with
no difference found (R143; log entry 13). -/
def Engine.echoFits (de : Bool) : Engine → Bool
  | .sending x echoed differs =>
    echoed ≤ x.frame.characters.length &&
      (de || (!differs && x.frame.characters.length == echoed + 1))
  | _ => true

/-- The fault reasons found in each state (Table 7-1, R122, R124). -/
def LineGuard.reasonFits (g : LineGuard) : Bool :=
  match g.lineState with
  | .faulted => g.faultReason != .none
  | .recovering => g.faultReason != .none
  | .starting => (g.startCause == .recovery) == (g.faultReason != .none)
  | _ => g.faultReason == .none

/-- A line's blocks agree with one another: Tables 3-2, 4-4, 7-1 and 7-2. -/
abbrev LineOk (b : LineBlock) : Prop :=
  b.guard.lineState.engineFits b.engine = true ∧
  b.guard.lineState.watchFits b.guard.watch = true ∧
  b.guard.reasonFits = true ∧
  (b.scheduler.running = true ↔ b.guard.lineState = .running) ∧
  (b.scheduler.floor = .stopped ↔ b.guard.lineState ≠ .running) ∧
  (b.pins.de = true → b.engine.isSending = true ∨ b.guard.watch.isWakeBreak = true) ∧
  (b.guard.watch.isWakeBreak = true → b.pins.de = true) ∧
  b.engine.echoFits b.pins.de = true ∧
  b.pins.tx = b.txExpected ∧
  (b.guard.holdTimer.isSome = true ↔ b.guard.lineState = .faulted) ∧
  (b.guard.stopAfterHold = true → b.guard.lineState = .faulted) ∧
  (b.guard.stuckRun.isSome = true → b.guard.lineState.watched = true ∧ b.pins.de = false) ∧
  (b.scheduler.stepInProgress = true →
    b.engine ≠ .idle ∧ b.discovery.active = true ∧ b.guard.lineState.watched = true) ∧
  (b.discovery.active = true → b.guard.lineState = .running ∨
    b.guard.lineState = .stopping ∧ b.discovery.stopPending ≠ .none) ∧
  (b.discovery.stopPending ≠ .none → b.scheduler.stepInProgress = true) ∧
  (b.guard.contentionRun ≤ 3 ∧ (b.guard.lineState = .starting ∨ b.guard.lineState.watched = true →
    b.guard.contentionRun < 3)) ∧
  b.scheduler.walk ≤ 64 ∧ b.scheduler.interleaveCount ≤ 8 ∧ b.guard.params.inRange = true

/-- Both lines are legal, and no miss run passes the greatest miss limit (Table 1-1). -/
abbrev LinesOk (s : State) : Prop :=
  LineOk s.lineA ∧ LineOk s.lineB ∧ ∀ i : EntryIndex, (s.node i).missRun ≤ 15

/-! ### Host link (10) -/

/-- The reply of a SENDING entry. -/
def EntryState.sendingReply : EntryState → Option Message
  | .sending m => some m
  | _ => none

/-- The reply in transmission. -/
def Transmission.replyMessage : Transmission → Option Message
  | .reply m => some m
  | _ => none

/-- An entry still WAITING. -/
def EntryState.isWaiting : EntryState → Bool
  | .waiting => true
  | _ => false

/-- The frame in progress is as long as it can be in its state, and its check is the check of what has
come (R158). -/
def Parser.consistent : Parser → Bool
  | .hunt => true
  | .length => true
  | .body f => 2 ≤ f.length && f.length ≤ 202 && f.bytes.length < f.length &&
      f.check == crc (BitVec.ofNat 8 f.length :: f.bytes)
  | .check f _ => 2 ≤ f.length && f.length ≤ 202 && f.bytes.length == f.length &&
      f.check == crc (BitVec.ofNat 8 f.length :: f.bytes)

/-- The inbox holds at most 4 entries, at most one SENDING, which is the reply in transmission, and
WAITING ones only behind RESET_PART (R161, R162, R166); the gap timer is stopped in HUNT (R159); and an
idle transmitter has nothing to begin (R163). -/
abbrev LinkOk (s : State) : Prop :=
  s.link.inbox.length ≤ 4 ∧
  (s.link.inbox.filterMap fun e => e.state.sendingReply) =
    (s.link.transmitter.bind Transmission.replyMessage).toList ∧
  ((s.link.inbox.any fun e => e.state.isWaiting) = true → s.link.resetPending = true) ∧
  (s.link.parser = .hunt → s.link.gapTimer = none) ∧
  s.link.parser.consistent = true ∧
  arbitrate s = s

/-! ### Transfer pool (02) -/

/-- The record that an exchange carries (R72). -/
def Carried.record : Carried → Option RecordIndex
  | .transfer r _ => some r
  | _ => none

/-- The record in flight on a line: the one its exchange carries, the outcome not yet fixed (R32). -/
def LineBlock.flying (b : LineBlock) : Option RecordIndex :=
  b.engine.unfixed.bind fun x => x.carried.record

/-- The report in transmission. -/
def Transmission.source : Transmission → Option Source
  | .report src _ => some src
  | _ => none

/-- The source whose report is in transmission. -/
def State.sendingSource (s : State) : Option Source := s.link.transmitter.bind Transmission.source

/-- A line's two queues hold records that are QUEUED on that line with the queue's priority, each once
(R28), and its exchange in flight a record that is IN_FLIGHT on it (R32). -/
abbrev QueuesOk (s : State) (l : Line) : Prop :=
  (s.line l).urgent.Nodup ∧ (s.line l).normal.Nodup ∧
  (∀ r ∈ (s.line l).urgent, (s.record r).state = .queued ∧ (s.record r).line = l ∧
    (s.record r).priority = .urgent) ∧
  (∀ r ∈ (s.line l).normal, (s.record r).state = .queued ∧ (s.record r).line = l ∧
    (s.record r).priority = .normal) ∧
  (∀ r : RecordIndex, (s.line l).flying = some r →
    (s.record r).state = .inFlight ∧ (s.record r).line = l)

/-- Each record stands where its state says (Table 2-2, R26, R28, R32, R45, R46), and no two hold one
tag (R27). -/
abbrev PoolOk (s : State) : Prop :=
  s.reports.Nodup ∧ QueuesOk s .A ∧ QueuesOk s .B ∧
  (∀ r : RecordIndex, (s.record r).state = .queued →
    r ∈ (s.line (s.record r).line).queue (s.record r).priority) ∧
  (∀ r : RecordIndex, (s.record r).state = .inFlight →
    (s.line (s.record r).line).flying = some r) ∧
  (∀ r : RecordIndex, (s.record r).state = .completed ↔
    Source.completion r ∈ s.reports ∨ s.sendingSource = some (.completion r)) ∧
  (∀ r : RecordIndex, Source.completion r ∈ s.reports →
    s.sendingSource ≠ some (.completion r)) ∧
  (∀ r q : RecordIndex, (s.record r).state ≠ .free → (s.record q).state ≠ .free →
    (s.record r).tag = (s.record q).tag → r = q)

/-- A line in DOWN or STOPPING has both queues empty (R28, R43). -/
abbrev StoppedEmpty (b : LineBlock) : Prop :=
  b.guard.lineState = .down ∨ b.guard.lineState = .stopping → b.urgent = [] ∧ b.normal = []

/-! ### Receive store (05) -/

/-- The slot reserved for an exchange (R90). -/
def Carried.slot : Carried → Option SlotIndex
  | .poll _ k => k
  | _ => none

/-- The slot reserved for the POLL in flight on a line. -/
def LineBlock.reserved (b : LineBlock) : Option SlotIndex :=
  b.engine.unfixed.bind fun x => x.carried.slot

/-- Each slot stands where its state says (Table 5-2, R89). -/
abbrev SlotsOk (s : State) : Prop :=
  s.reports.Nodup ∧
  (∀ k : SlotIndex, s.lineA.reserved = some k →
    (s.slot k).state = .reserved ∧ (s.slot k).line = .A) ∧
  (∀ k : SlotIndex, s.lineB.reserved = some k →
    (s.slot k).state = .reserved ∧ (s.slot k).line = .B) ∧
  (∀ k : SlotIndex, (s.slot k).state = .reserved →
    (s.line (s.slot k).line).reserved = some k) ∧
  (∀ k : SlotIndex, (s.slot k).state = .filled ↔ Source.data k ∈ s.reports) ∧
  (∀ k : SlotIndex, (s.slot k).state = .sending ↔ s.sendingSource = some (.data k))

end Sys2Proof.Machine
end

