-- ==== Sys2Proof/Certificates/Slice0/Obligations.lean ====
section
/-! DEFINITION. The statements for the provers. -/

open Sys2Proof Sys2Proof.Machine

/-! ### The machine -/

/-- A step with a command at the front of the queue is that command's effect with the queue's rest;
on an empty queue the part idles (log entry 1: the model's choice). -/
def Obligations.StepRunsTheFrontCommand : Prop :=
  (∀ (c : Instr) (rest : List Instr) (s : State),
    step { s with pending := c :: rest } = exec c { s with pending := rest }) ∧
  ∀ s : State, s.pending = [] → step s = .next s

/-- No command stops the part, and none changes the queue of commands. The queue is the model's own
(log entry 1). -/
def Obligations.EveryCommandCompletesAndKeepsTheQueue : Prop :=
  ∀ (c : Instr) (s : State), ∃ t, exec c s = .next t ∧ t.pending = s.pending

/-- The values the spec gives for each block at a reset of the part; State.reset is these with the
ANNOUNCE of cause POWER begun (strap code, RX pins and RESET pin as log entry 6 chooses). -/
def Obligations.ResetLeavesTheStatedValues : Prop :=
  (∀ (straps : BitVec 2) (rxA rxB : Level) (pin : ResetPin) (queue : List Instr),
    let s := State.blocksReset straps rxA rxB pin queue
    (∀ i : EntryIndex, s.node i =
      ⟨0, .free, .A, 1, none, .fast, 0, false, false, false, false, false, false, false, 0, .none,
        0, 0⟩) ∧
    (∀ r : RecordIndex, (s.record r).state = .free ∧ (s.record r).deadlineTimer = none) ∧
    (∀ k : SlotIndex, s.slot k = ⟨.free, .A, ⟨0, 0⟩, 1, []⟩) ∧
    (∀ l : Line,
      let b := s.line l
      b.guard = ⟨.down, .request, false, .none, 0, none, .stopped, 0, false,
        ⟨4, 4, 2, 2, 3, 2, 100, 10, 64, 125⟩, ⟨0, 0, 0, 0, 0, 0, 0, 0, 0⟩, none⟩ ∧
      b.scheduler = ⟨false, 0, 0, 0, .stopped, false, false⟩ ∧ b.engine = .idle ∧
      b.discovery = ⟨false, .none, [], none, none, 0, 0, 0, 0, none, false⟩ ∧
      b.receiver.state = .searchUnarmed ∧ b.pins.tx = .rest ∧ b.pins.de = false ∧
      b.urgent = [] ∧ b.normal = []) ∧
    s.reports = [] ∧ s.link.strapCode = straps ∧ s.link.parser = .hunt ∧
    s.link.gapTimer = none ∧ s.link.inbox = [] ∧ s.link.resetPending = false ∧
    s.link.credits = 0 ∧ s.link.reportSeq = 0 ∧ s.link.notice = ⟨0, 0, 0, none, false⟩) ∧
  let s := State.blocksReset 0 .recessive .recessive .high []
  State.reset = { s with link := { s.link with transmitter := some (.announce ⟨0x60, 0,
    [0, 0x31, 0x5C, 0x64, 0x02, 1, 2, 64, 32, 16, 117, 4, 48, 33]⟩) } }

/-! ### Invariants -/

/-- The invariants below hold at reset. -/
def Obligations.InvariantsHoldAtReset : Prop :=
  NoticesOk State.reset ∧ NodesOk State.reset ∧ LinesOk State.reset ∧
    (∀ l : Line, StackOk (State.reset.line l).discovery ∧ RunOk (State.reset.line l).discovery ∧
      StoppedEmpty (State.reset.line l)) ∧
    LinkOk State.reset ∧ PoolOk State.reset ∧ SlotsOk State.reset

/-- R144, R146: one entry for each source, so at most 117. -/
def Obligations.ReportQueueHoldsEachSourceOnce : Prop :=
  ∀ s t : State, NoticesOk s → step s = .next t → NoticesOk t ∧ t.reports.length ≤ 117

/-- R6: no two entries occupy one address of one line. -/
def Obligations.NodeAddressesStayUnique : Prop :=
  ∀ s t : State, NodesOk s → step s = .next t → NodesOk t

/-- Tables 3-2, 4-4, 7-1 and 7-2 and R132, R143 stay agreed: which engine, watch, DE, TX and run states
each line state has. DE off in SENDING with the last echo alone outstanding is log entry 13, a stop
pending and a step in progress in STOPPING log entry 10, the dominant run log entry 29: the model's. -/
def Obligations.LineBlocksStayLegal : Prop :=
  ∀ s t : State, LinesOk s → step s = .next t → LinesOk t

/-- R106: a range stack keeps its shape and never holds more than 33 ranges; only a range of length
below 32 is split, into two halves with the 0-half on top. -/
def Obligations.RangeStackNeverPasses33 : Prop :=
  (∀ s t : State, (∀ l : Line, StackOk (s.line l).discovery ∧ RunOk (s.line l).discovery) →
    step s = .next t → ∀ l : Line,
      StackOk (t.line l).discovery ∧ RunOk (t.line l).discovery ∧
        (t.line l).discovery.stack.length ≤ 33) ∧
  ∀ (d : Discovery) (top : IdRange) (rest : List IdRange), d.stack = top :: rest →
    (top.length < 32 → d.collision.stack =
      ⟨top.value, top.length + 1, 0⟩ ::
        ⟨top.value ||| ((1 : BitVec 32) <<< (31 - top.length)), top.length + 1, 0⟩ :: rest) ∧
    (32 ≤ top.length → d.collision.stack = rest)

/-- The inbox, the parser and the arbiter stay agreed (R158 to R163). -/
def Obligations.HostLinkStaysConsistent : Prop :=
  ∀ s t : State, LinkOk s → step s = .next t → LinkOk t

/-- The transfer pool stays agreed: each record in the place of its state, tags held once. -/
def Obligations.TransferPoolStaysConsistent : Prop :=
  ∀ s t : State, PoolOk s → step s = .next t → PoolOk t

/-- The receive store stays agreed: each slot in the place of its state. -/
def Obligations.ReceiveStoreStaysConsistent : Prop :=
  ∀ s t : State, SlotsOk s → step s = .next t → SlotsOk t

/-- A line in DOWN or STOPPING keeps both queues empty. -/
def Obligations.StoppedLinesKeepEmptyQueues : Prop :=
  ∀ s t : State, LinesOk s → PoolOk s → (∀ l : Line, StoppedEmpty (s.line l)) →
    step s = .next t → ∀ l : Line, StoppedEmpty (t.line l)

/-! ### Host link, inbound -/

/-- The bytes of a whole frame on HRX, one after another in HUNT, are the command of the frame's kind:
no bit of it is dropped or misread. That a request is taken as its frame ends is log entry 4, the
model's reading. -/
def Obligations.ReceivedFrameIsItsCommand : Prop :=
  ∀ (s : State) (kind seq : Byte) (body : List Byte), s.resetPin = .high →
    s.link.receiver = .search → s.link.parser = .hunt → s.link.gapTimer = none →
    arbitrate s = s → body.length ≤ 200 →
    receiveBytes (Message.frame ⟨kind, seq, body⟩) s = exec (commandOf kind seq body) s

/-- R158: the second check byte ends the frame; a good one is the command of its kind, another is
counted. HOST_FRAME_RECEIVED does nothing where no second check byte is due. Log entries 4 and 16: the
model's choice of which commands do this. -/
def Obligations.SecondCheckByteJudgesTheFrame : Prop :=
  (∀ (s : State) (check : Samples 10), s.resetPin = .high →
    (∀ (f : InFrame) (first : Byte), s.link.parser ≠ .check f (some first)) →
    exec (.hostFrameReceived check) s = .next (arbitrate s)) ∧
  ∀ (s : State) (f : InFrame) (first : Byte) (check : Samples 10) (c : Instr),
    s.resetPin = .high → s.link.parser = .check f (some first) →
    s.link.receiver ≠ .stopLow → check.value.getLsbD 0 = false → check.value.getLsbD 9 = true →
    c ∈ [Instr.hostFrameReceived check, Instr.hostByteReceived check] →
    let high : Byte := check.value.extractLsb' 1 8
    let ended : HostLink :=
      { s.link with receiver := .search, parser := .hunt, gapTimer := none }
    (∀ (kind seq : Byte) (body : List Byte), high ++ first = f.check →
      f.bytes = kind :: seq :: body →
      exec c s = exec (commandOf kind seq body) { s with link := ended }) ∧
    (high ++ first ≠ f.check →
      exec c s = .next (arbitrate { s with
        link := { ended with notice := { ended.notice with
          checkFailures := satInc ended.notice.checkFailures, pending := true } }
        reports := enqueueAll [.link] s.reports }))

/-- R156, R157, R158: a byte whose start is decided high is dropped; with the stop decided low nothing is
handed over and HRX is watched; else what the parser makes of the byte in HUNT, LENGTH (good lengths),
BODY and CHECK (first byte). The gap timer set as the byte is received is log entry 15, a receiver that
watches HRX log entry 26. -/
def Obligations.ReceivedByteAdvancesTheParser : Prop :=
  ∀ (s : State) (b : Samples 10), s.resetPin = .high →
    let start := b.value.getLsbD 0
    let data : Byte := b.value.extractLsb' 1 8
    let stop := b.value.getLsbD 9
    let k : HostLink := { s.link with receiver := .search }
    let received := exec (.hostByteReceived b) s
    let now (p : Parser) : Host.Outcome State Fault Refusal :=
      .next (arbitrate { s with link := { k with parser := p, gapTimer := some hostGapTime } })
    (s.link.receiver = .stopLow → received = .next (arbitrate s)) ∧
    (s.link.receiver ≠ .stopLow →
      (start = true → received = .next (arbitrate { s with link := k })) ∧
      (start = false → stop = false → received = .next (arbitrate { s with
        link := { s.link with receiver := .stopLow, gapTimer := none } })) ∧
      (start = false → stop = true →
        (k.parser = .hunt → data = 0xC3 → received = now .length) ∧
        (k.parser = .hunt → data ≠ 0xC3 → received = .next (arbitrate { s with link := k })) ∧
        (k.parser = .length → 2 ≤ data.toNat → data.toNat ≤ 202 →
          received = now (.body ⟨data.toNat, [], crc [data]⟩)) ∧
        (∀ f : InFrame, k.parser = .body f →
          let g : InFrame := ⟨f.length, f.bytes ++ [data], crcByte f.check data⟩
          received = now (if f.bytes.length + 1 < f.length then .body g else .check g none)) ∧
        (∀ f : InFrame, k.parser = .check f none →
          received = now (.check f (some data)))))

/-- R157 to R160: a bad length, a byte framing error in a frame and an expired gap abandon the frame
and count a framing failure; a byte framing error in HUNT counts nothing. A break drops the frame in
progress and counts nothing, and a start verified in the search stops the gap timer. That
BAD_FRAME_LENGTH and HOST_BYTE_RECEIVED agree is log entry 16, what a start does outside the search log
entry 2. -/
def Obligations.AbandonedFramesAreCounted : Prop :=
  ∀ (s : State), s.resetPin = .high →
    let abandoned (k : HostLink) : Host.Outcome State Fault Refusal :=
      .next (arbitrate { s with
        link := { k with
          parser := .hunt
          gapTimer := none
          notice := { k.notice with
            framingFailures := satInc k.notice.framingFailures, pending := true } }
        reports := enqueueAll [.link] s.reports })
    let search : HostLink := { s.link with receiver := .search }
    (∀ b : Samples 10, s.link.parser = .length → s.link.receiver ≠ .stopLow →
      b.value.getLsbD 0 = false → b.value.getLsbD 9 = true →
      let length : Byte := b.value.extractLsb' 1 8
      length.toNat < 2 ∨ 202 < length.toNat →
      exec (.badFrameLength b) s = abandoned search ∧
        exec (.hostByteReceived b) s = abandoned search) ∧
    (s.link.parser ≠ .hunt → exec .byteFramingError s = abandoned search) ∧
    (s.link.parser = .hunt →
      exec .byteFramingError s = .next (arbitrate { s with link := search })) ∧
    (s.link.gapTimer.isSome = true → exec .hostGapTimeout s = abandoned s.link) ∧
    exec .hostBreak s = .next { s with
      link := { s.link with receiver := .search, parser := .hunt, gapTimer := none } } ∧
    (s.link.receiver = .search → exec .hostStartVerified s = .next { s with
      link := { s.link with receiver := .byte, gapTimer := none } }) ∧
    (s.link.receiver ≠ .search → exec .hostStartVerified s = .next s)

/-! ### Host link, outbound and resets -/

/-- R163, R148: the arbiter's order: the ANNOUNCE, the oldest READY reply, the head report with a
credit, or nothing. -/
def Obligations.ArbiterChoosesInOrder : Prop :=
  ∀ s : State,
    (s.link.transmitter.isSome = true → arbitrate s = s) ∧
    (s.link.transmitter = none →
      (∀ c : ResetCause, s.link.announcePending = some c →
        arbitrate s = { s with link := { s.link with
          announcePending := none
          transmitter := some (.announce ⟨0x60, 0, c.code ::
            [0x31, 0x5C, 0x64, 0x02, 1, 2, 64, 32, 16, 117, 4, 48, 33]⟩) } }) ∧
      (s.link.announcePending = none →
        (∀ (older newer : List InboxEntry) (e : InboxEntry) (m : Message),
          s.link.inbox = older ++ e :: newer → e.state = .ready m →
          (∀ o ∈ older, ∀ m' : Message, o.state ≠ .ready m') →
          arbitrate s = { s with link := { s.link with
            inbox := older ++ { e with state := .sending m } :: newer
            transmitter := some (.reply m) } }) ∧
        ((∀ e ∈ s.link.inbox, ∀ m : Message, e.state ≠ .ready m) →
          (s.reports = [] ∨ s.link.credits = 0 → arbitrate s = s) ∧
          (∀ (src : Source) (rest : List Source), s.reports = src :: rest → s.link.credits ≠ 0 →
            let u := sourceBegins src { s with reports := rest }
            arbitrate s = { u with link := { u.link with
              credits := s.link.credits - 1
              reportSeq := s.link.reportSeq + 1
              transmitter := some (.report src ⟨src.kind, s.link.reportSeq.extractLsb' 0 8,
                le16 s.link.reportSeq ++ reportBody src s⟩) } }))))

/-- R150, R46, R98, R161, R165: what the end of a transmission frees. -/
def Obligations.EndedTransmissionFreesItsSource : Prop :=
  ∀ (s : State) (straps : BitVec 2), s.resetPin = .high →
    let idle : HostLink := { s.link with transmitter := none }
    (∀ (m : Message) (older newer : List InboxEntry) (e : InboxEntry),
      s.link.transmitter = some (.reply m) →
      s.link.resetPending = false ∨ m.kind ≠ 0x92 ∨ m.body ≠ [0] →
      s.link.inbox = older ++ e :: newer → e.state = .sending m →
      (∀ o ∈ older, o.state.isSending = false) →
      exec (.replySent straps) s =
        .next (arbitrate { s with link := { idle with inbox := older ++ newer } })) ∧
    (∀ (r : RecordIndex) (m : Message), s.link.transmitter = some (.report (.completion r) m) →
      exec .reportSent s = .next (arbitrate
        (State.setRecord { s with link := idle } r { s.record r with state := .free }))) ∧
    (∀ (k : SlotIndex) (m : Message), s.link.transmitter = some (.report (.data k) m) →
      exec .reportSent s = .next (arbitrate
        (State.setSlot { s with link := idle } k { s.slot k with state := .free }))) ∧
    (∀ (src : Source) (m : Message), s.link.transmitter = some (.report src m) →
      (∀ r : RecordIndex, src ≠ .completion r) → (∀ k : SlotIndex, src ≠ .data k) →
      exec .reportSent s = .next (arbitrate { s with link := idle })) ∧
    (∀ m : Message, s.link.transmitter = some (.announce m) →
      exec .announceSent s = .next (arbitrate { s with link := idle }))

/-- R165, R166, R187: power-on reset, the pin's release and the end of RESET_PART's reply leave
every block at its reset values, the straps sampled and the ANNOUNCE with its cause begun; from
RESET low the part is held at them. The RX pins stay as the lines show them. Straps as operands, the
pin's low and one step for a power-on reset are log entries 8, 9 and 27. -/
def Obligations.ResetsRestoreEveryBlock : Prop :=
  ∀ (s : State) (straps : BitVec 2),
    let announced (cause : Byte) : State :=
      { State.blocksReset straps s.lineA.pins.rx s.lineB.pins.rx .high s.pending with
        link := { HostLink.reset straps with
          transmitter := some (.announce ⟨0x60, 0, cause ::
            [0x31, 0x5C, 0x64, 0x02, 1, 2, 64, 32, 16, 117, 4, 48, 33]⟩) } }
    (s.resetPin = .high → exec (.powerOnReset straps) s = .next (announced 0)) ∧
    (s.resetPin = .high → exec .resetPinLow s = .next
      (State.blocksReset s.link.strapCode s.lineA.pins.rx s.lineB.pins.rx (.low false)
        s.pending)) ∧
    (∀ b : Bool, s.resetPin = .low b → exec (.powerOnReset straps) s = .next
      (State.blocksReset straps s.lineA.pins.rx s.lineB.pins.rx (.low true) s.pending)) ∧
    (s.resetPin = .low true → exec (.resetPinRelease straps) s = .next (announced 0)) ∧
    (s.resetPin = .low false → exec (.resetPinRelease straps) s = .next (announced 1)) ∧
    (∀ seq : Byte, s.resetPin = .high → s.link.resetPending = true →
      s.link.transmitter = some (.reply ⟨0x92, seq, [0]⟩) →
      exec (.replySent straps) s = .next (announced 2))

/-- R187 (log entry 9: the model's reading): while RESET is held low no command but the resets' own
and a change of an RX pin has an effect. -/
def Obligations.HeldInResetNothingHappens : Prop :=
  ∀ (s : State) (b : Bool) (c : Instr), s.resetPin = .low b →
    (∀ x : BitVec 2, c ≠ .powerOnReset x) → (∀ x : BitVec 2, c ≠ .resetPinRelease x) →
    (∀ (l : Line) (v : Level), c ≠ .lineLevelChange l v) → exec c s = .next s

/-! ### Requests in general -/

/-- R168, R169: a body of a length that its kind does not allow is refused BAD_LENGTH, and a line
field that names neither line BAD_VALUE by every request of one line field; neither changes
anything. -/
def Obligations.BadLengthAndBadLineAreRefused : Prop :=
  ∀ (s : State) (seq : Byte), Ready s →
    (∀ body : List Byte, ∀ p ∈ requestRows seq body, lengthFits p.1 body.length = false →
      exec p.2 s = .next (answered p.1 seq body [1] s)) ∧
    (∀ line : Byte, 1 < line.toNat → ∀ p ∈ requestRows seq [line],
      p.1 ∈ ([0x04, 0x05, 0x06, 0x0B, 0x0F, 0x10] : List Byte) →
      exec p.2 s = .next (answered p.1 seq [line] [3] s))

/-- R162: a frame of a kind that no request has is refused UNKNOWN_KIND and changes nothing. -/
def Obligations.UnknownKindIsRefused : Prop :=
  ∀ (s : State) (kind seq : Byte) (body : List Byte), Ready s →
    kind = 0 ∨ 0x12 < kind.toNat →
    exec (.unknownKind kind seq body) s = .next (arbitrate { s with link := { s.link with
      inbox := s.link.inbox ++ [⟨kind, seq, body, .ready ⟨0xFF, seq, [2, kind]⟩⟩] } })

/-- R161: a request that finds four entries held is discarded, counted and named. A request command
is a good frame delivered (log entry 4). -/
def Obligations.FullInboxDiscardsTheRequest : Prop :=
  ∀ (s : State) (seq kind : Byte) (body : List Byte), s.resetPin = .high →
    s.link.inbox.length = 4 →
    ∀ c ∈ (requestRows seq body).map (·.2) ++ [.unknownKind kind seq body],
      exec c s = .next (arbitrate { s with
        link := { s.link with notice := { s.link.notice with
          inboxOverruns := satInc s.link.notice.inboxOverruns
          lastDiscarded := some seq
          pending := true } }
        reports := enqueueAll [.link] s.reports })

/-! ### The part -/

/-- R170: IDENTIFY reads the same in every state, gives what the ANNOUNCE carries and changes
nothing. -/
def Obligations.IdentifyGivesThePartsConstants : Prop :=
  let constants : List Byte := [0x31, 0x5C, 0x64, 0x02, 1, 2, 64, 32, 16, 117, 4, 48, 33]
  (∀ (s : State) (seq : Byte), Ready s →
    exec (.identify seq []) s = .next (answered 0x01 seq []
      ([0] ++ constants ++ [s.link.strapCode.zeroExtend 8]) s)) ∧
  ∀ c : ResetCause, (announceMessage c).body = c.code :: constants

/-- R164, R171: CREDIT adds n to the count, or is refused for n = 0 and for a sum above 255. -/
def Obligations.CreditAddsToTheCount : Prop :=
  ∀ (s : State) (seq n : Byte), Ready s →
    (n ≠ 0 → s.link.credits.toNat + n.toNat ≤ 255 →
      exec (.credit seq [n]) s = .next (answered 0x11 seq [n] [0, s.link.credits + n]
        { s with link := { s.link with credits := s.link.credits + n } })) ∧
    (n = 0 ∨ 255 < s.link.credits.toNat + n.toNat →
      exec (.credit seq [n]) s = .next (answered 0x11 seq [n] [3] s))

/-- R166, R172: RESET_PART sets reset pending, and from then on a request only waits. -/
def Obligations.ResetPartMakesRequestsWait : Prop :=
  ∀ (s : State) (seq : Byte),
    (Ready s → exec (.resetPart seq []) s = .next (answered 0x12 seq [] [0]
      { s with link := { s.link with resetPending := true } })) ∧
    (s.resetPin = .high → s.link.resetPending = true → s.link.inbox.length < 4 →
      ∀ body : List Byte, ∀ p ∈ requestRows seq body,
        exec p.2 s = .next (arbitrate { s with link := { s.link with
          inbox := s.link.inbox ++ [⟨p.1, seq, body, .waiting⟩] } }))

/-! ### Lines -/

/-- R128, R173, R134: CONFIGURE_LINE on a DOWN line sets all ten parameters; its checks in order. -/
def Obligations.ConfigureLineSetsTheParameters : Prop :=
  ∀ (s : State) (seq b rate timeout guard gap miss inter floor0 floor1 hold low high : Byte),
    Ready s →
    let body := [b, rate, timeout, guard, gap, miss, inter, floor0, floor1, hold, low, high]
    let good := rate.toNat ≤ 7 ∧ 1 ≤ timeout.toNat ∧ (1 ≤ guard.toNat ∧ guard.toNat ≤ 15) ∧
      (1 ≤ gap.toNat ∧ gap.toNat ≤ 4) ∧ (1 ≤ miss.toNat ∧ miss.toNat ≤ 15) ∧
      (1 ≤ inter.toNat ∧ inter.toNat ≤ 8) ∧ 1 ≤ hold.toNat ∧
      (1 ≤ low.toNat ∧ low.toNat ≤ high.toNat ∧ high.toNat ≤ 125)
    (1 < b.toNat →
      exec (.configureLine seq body) s = .next (answered 0x02 seq body [3] s)) ∧
    (∀ l : Line, b = lineCode l → (s.line l).guard.lineState ≠ .down →
      exec (.configureLine seq body) s = .next (answered 0x02 seq body [5] s)) ∧
    (∀ l : Line, b = lineCode l → (s.line l).guard.lineState = .down → ¬ good →
      exec (.configureLine seq body) s = .next (answered 0x02 seq body [3] s)) ∧
    (∀ l : Line, b = lineCode l → (s.line l).guard.lineState = .down → good →
      exec (.configureLine seq body) s = .next (answered 0x02 seq body [0]
        (s.setLine l { s.line l with
          guard := { (s.line l).guard with params :=
            ⟨rate, timeout, guard, gap, miss, inter, floor1 ++ floor0, hold, low, high⟩ }
          receiver :=
            if rate = (s.line l).guard.params.rateCode then (s.line l).receiver
            else ⟨.searchUnarmed, false⟩ })))

/-- R130, R174: QUERY_LINE reads the line, and clears its nine counters when asked. -/
def Obligations.QueryLineReadsTheLine : Prop :=
  ∀ (s : State) (seq clear : Byte) (l : Line), Ready s →
    let b := s.line l
    let p := b.guard.params
    let n := b.guard.counters
    let reply : List Byte :=
      [0, p.rateCode, p.replyTimeout, p.guardTime, p.gapLimit, p.missLimit, p.interleave] ++
        le16 p.cycleFloor ++ [p.faultHold, p.assignLow, p.assignHigh,
        b.guard.lineState.code, b.guard.faultReason.code, b.guard.recoveryCount] ++
        ([n.exchangesStarted, n.noReply, n.badReply, n.contention, n.noisyCharacters,
          n.falseStarts, n.duplicates, n.faults, n.cyclesCompleted].map le16).flatten ++
        [BitVec.ofNat 8 b.urgent.length, BitVec.ofNat 8 b.normal.length] ++
        le16 b.scheduler.cycle ++ [if b.discovery.active then 1 else 0]
    (clear = 0 → exec (.queryLine seq [lineCode l, clear]) s =
      .next (answered 0x03 seq [lineCode l, clear] reply s)) ∧
    (clear = 1 → exec (.queryLine seq [lineCode l, clear]) s =
      .next (answered 0x03 seq [lineCode l, clear] reply
        (s.setLine l { b with guard := { b.guard with
          counters := ⟨0, 0, 0, 0, 0, 0, 0, 0, 0⟩ } }))) ∧
    (∀ line : Byte, 1 < line.toNat ∨ 1 < clear.toNat → exec (.queryLine seq [line, clear]) s =
      .next (answered 0x03 seq [line, clear] [3] s))

/-- R20, R118, R119, R175: START_LINE takes a DOWN line to STARTING, drives the wake break for 2
character times and sets its entries PENDING; it is refused in every other state. The dominant run
is log entry 29. -/
def Obligations.StartLineResetsTheEntries : Prop :=
  ∀ (s : State) (seq : Byte) (l : Line), Ready s →
    let c := Instr.startLine seq [lineCode l]
    let reset (i : EntryIndex) : Bool :=
      (s.node i).line == l && (s.node i).state != .free && (s.node i).state != .parked
    ((s.line l).guard.lineState ≠ .down →
      exec c s = .next (answered 0x04 seq [lineCode l] [5] s)) ∧
    ((s.line l).guard.lineState = .down → ∃ u : State,
      exec c s = .next (answered 0x04 seq [lineCode l]
        [0, BitVec.ofNat 8 (entryIndexes.filter reset).length] u) ∧
      (∀ i : EntryIndex, u.node i =
        if reset i then
          { s.node i with
            state := .pending, missRun := 0, restartPending := true, putToggle := false
            acceptedToggle := true, morePending := false, lastChange := .lineStarted }
        else s.node i) ∧
      u.line l = { s.line l with
        guard := { (s.line l).guard with
          lineState := .starting, startCause := .request, recoveryCount := 0, contentionRun := 0
          faultReason := .none, holdTimer := none, stuckRun := none
          watch := .wakeBreak (2 * charTime (s.line l).guard.params) }
        pins := { (s.line l).pins with tx := .wakeBreak, de := true } } ∧
      u.line (otherLine l) = s.line (otherLine l) ∧ u.records = s.records ∧ u.slots = s.slots ∧
      u.reports = s.reports ∧ u.link = s.link ∧ u.resetPin = s.resetPin ∧
      u.pending = s.pending)

/-- R43, R125, R176: STOP_LINE. DOWN at once where no exchange is in flight; a GUARD of a FAULTED
line is cut short first. -/
def Obligations.StopLineTakesTheLineDown : Prop :=
  ∀ (s : State) (seq : Byte) (l : Line), Ready s →
    let b := s.line l
    let c := Instr.stopLine seq [lineCode l]
    (b.guard.lineState = .down ∨ b.guard.lineState = .stopping →
      exec c s = .next (answered 0x05 seq [lineCode l] [5] s)) ∧
    (b.guard.lineState ≠ .down → b.guard.lineState ≠ .stopping → b.engine = .idle →
      ∃ u : State,
        exec c s = .next (answered 0x05 seq [lineCode l]
          [0, BitVec.ofNat 8 b.queued.length, 0] u) ∧
        TakenDown l { b.scheduler with running := false, floor := .stopped, stepInProgress := false }
          s u) ∧
    (∀ (x : Exchange) (o : ExchangeOutcome) (d : Duration), b.guard.lineState = .faulted →
      b.engine = .guard x o d → exec c s = exec c (finishExchange l x.carried s))

/-- R43, R62, R87, R114, R125, R176: STOP_LINE with an exchange in flight on a RUNNING line. That a
step in progress stays so in STOPPING is log entry 10. -/
def Obligations.StopLineLetsTheExchangeRunOn : Prop :=
  ∀ (s : State) (seq : Byte) (l : Line), Ready s →
    let b := s.line l
    let d := b.discovery
    let stepping := b.scheduler.stepInProgress
    b.guard.lineState = .running → b.engine ≠ .idle → ∃ u : State,
      exec (.stopLine seq [lineCode l]) s = .next (answered 0x05 seq [lineCode l]
        [0, BitVec.ofNat 8 b.queued.length, 1] u) ∧
      u.line l = { b with
        guard := { b.guard with lineState := .stopping }
        scheduler := { b.scheduler with running := false, floor := .stopped }
        discovery :=
          if stepping then
            if d.active ∧ d.stopPending = .none then { d with stopPending := .lineStopped } else d
          else afterRun d .lineStopped
        urgent := []
        normal := [] } ∧
      (∀ r : RecordIndex, u.record r =
        if r ∈ b.queued then completedWith .aborted (s.record r) else s.record r) ∧
      (∀ i : EntryIndex, u.node i =
        if stepping then s.node i else afterRunNode d i (s.node i)) ∧
      u.reports = enqueueAll (b.queued.map Source.completion ++
        if stepping then [] else runSources l d) s.reports ∧
      u.slots = s.slots ∧ KeptOutside l s u

/-- R44, R49, R86, R114, R127, R177: RESET_LINE takes a line DOWN from every state, its exchange
ABORTED or its GUARD cut short first, and counts the records it aborts. The scheduler's values and
the NODE report's place are log entries 11 and 19. -/
def Obligations.ResetLineTakesTheLineDown : Prop :=
  ∀ (s : State) (seq : Byte) (l : Line), Ready s →
    let scheduler : Scheduler := ⟨false, (s.line l).scheduler.cycle, 0, 0, .stopped, false, false⟩
    let done (v : State) (inFlight : Nat) : Prop := ∃ u : State,
      exec (.resetLine seq [lineCode l]) s = .next (answered 0x06 seq [lineCode l]
        [0, BitVec.ofNat 8 (inFlight + (v.line l).queued.length)] u) ∧
      TakenDown l scheduler v u
    ((s.line l).engine = .idle → done s 0) ∧
    (∀ (x : Exchange) (o : ExchangeOutcome) (d : Duration), (s.line l).engine = .guard x o d →
      done (finishExchange l x.carried s) 0) ∧
    (∀ x : Exchange, (s.line l).engine.unfixed = some x →
      done (fixOutcome l .aborted (finishTarget x.carried s))
        (if x.carried.record.isSome then 1 else 0))

/-! ### Nodes -/

/-- R2, R185: a handle's number is the index plus 64 times the generation, and is read back; a value
above 1023 names no entry. -/
def Obligations.HandleNumbersNameEntries : Prop :=
  (∀ h : Handle, h.number.toNat = h.index.val + 64 * h.generation.toNat ∧
    decodeHandle h.number = some h) ∧
  ∀ w : Word16, 1023 < w.toNat → decodeHandle w = none

/-- R4, R5, R6, R7, R178: ADD_NODE fills the allocatable entry of lowest index; its checks in order.
`given` is the identity of the longer body. -/
def Obligations.AddNodeFillsTheLowestEntry : Prop :=
  ∀ (s : State) (seq line address cls : Byte) (given : Option Identity),
    Ready s →
    let body := [line, address, cls] ++ (given.map le32).getD []
    let c := Instr.addNode seq body
    let refused (st : Byte) : Prop := exec c s = .next (answered 0x07 seq body [st] s)
    (1 < line.toNat ∨ 2 < cls.toNat → refused 3) ∧
    (∀ (l : Line) (k : PollClass), line = lineCode l → cls = k.code →
      (address.toNat = 0 ∨ 125 < address.toNat → refused 4) ∧
      (∀ a : Address, address = a.zeroExtend 8 → 1 ≤ a.toNat → a.toNat ≤ 125 →
        let inUse := ∃ i : EntryIndex, (s.node i).line = l ∧ (s.node i).address = a ∧
          ((s.node i).state ≠ .free ∨ (s.node i).assignHold = true)
        let known := ∃ (i : EntryIndex) (x : Identity), given = some x ∧ (s.node i).line = l ∧
          (s.node i).identity = some x ∧
          ((s.node i).state ≠ .free ∨ (s.node i).assignHold = true)
        let allocatable (i : EntryIndex) : Prop := (s.node i).state = .free ∧
          (s.node i).noticePending = false ∧ (s.node i).assignHold = false
        (inUse → refused 8) ∧
        (¬ inUse → known → refused 3) ∧
        (¬ inUse → ¬ known → (∀ i, ¬ allocatable i) → refused 7) ∧
        (¬ inUse → ¬ known → ∀ i, allocatable i → (∀ j, j < i → ¬ allocatable j) →
          let g := (s.node i).generation + 1
          exec c s = .next (answered 0x07 seq body
            (0 :: le16 (BitVec.ofNat 16 (i.val + 64 * g.toNat)))
            (s.setNode i ⟨g, .pending, l, a, given, k, 0, false, true, true, false, false, false,
              false, 0, .added, 0, 0⟩)))))

/-- R17, R18, R40, R179: REMOVE_NODE frees the entry at once, or sets removal pending while an
exchange is in flight to it; its queued records complete NODE_GONE. -/
def Obligations.RemoveNodeFreesTheEntry : Prop :=
  ∀ (s : State) (seq b0 b1 : Byte), Ready s →
    let c := Instr.removeNode seq [b0, b1]
    ((∀ h : Handle, decodeHandle (b1 ++ b0) = some h → isStale h s = true) →
      exec c s = .next (answered 0x08 seq [b0, b1] [9] s)) ∧
    (∀ h : Handle, decodeHandle (b1 ++ b0) = some h → isStale h s = false →
      let e := s.node h.index
      let b := s.line e.line
      let flying := inFlightTo h.index s
      let aimed := b.queued.filter fun r => (s.record r).aimedAt h.index
      let stays (r : RecordIndex) : Bool := !(s.record r).aimedAt h.index
      ∃ u : State,
        exec c s = .next (answered 0x08 seq [b0, b1]
          [0, BitVec.ofNat 8 aimed.length, if flying then 1 else 0] u) ∧
        (∀ i : EntryIndex, u.node i =
          if i = h.index then
            if flying then { e with removalPending := true }
            else { e with state := .free, removalPending := false, lastChange := .removed }
          else s.node i) ∧
        (∀ r : RecordIndex, u.record r =
          if r ∈ aimed then completedWith .nodeGone (s.record r) else s.record r) ∧
        u.line e.line = { b with urgent := b.urgent.filter stays, normal := b.normal.filter stays } ∧
        u.reports = enqueueAll (aimed.map Source.completion) s.reports ∧
        u.slots = s.slots ∧ KeptOutside e.line s u)

/-- R19, R180: SET_NODE changes the class, parks or unparks; its checks in order. -/
def Obligations.SetNodeChangesClassAndParks : Prop :=
  ∀ (s : State) (seq b0 b1 cls action : Byte), Ready s →
    let body := [b0, b1, cls, action]
    let refused (st : Byte) : Prop :=
      exec (.setNode seq body) s = .next (answered 0x09 seq body [st] s)
    ((2 < cls.toNat ∧ cls ≠ 0xFF) ∨ 2 < action.toNat ∨ (cls = 0xFF ∧ action = 0) → refused 3) ∧
    (cls.toNat ≤ 2 ∨ cls = 0xFF → action.toNat ≤ 2 → ¬ (cls = 0xFF ∧ action = 0) →
      ((∀ h : Handle, decodeHandle (b1 ++ b0) = some h → isStale h s = true) → refused 9) ∧
      (∀ h : Handle, decodeHandle (b1 ++ b0) = some h → isStale h s = false →
        let e := s.node h.index
        let k : PollClass := if cls = 0 then .fast else if cls = 1 then .steady
          else if cls = 2 then .slow else e.pollClass
        let set (e1 : NodeEntry) : Prop :=
          exec (.setNode seq body) s = .next (answered 0x09 seq body
            [0, e1.state.code, e1.pollClass.code] (s.setNode h.index e1))
        (action = 0 → set { e with pollClass := k }) ∧
        (action = 1 → e.state = .parked → refused 5) ∧
        (action = 1 → e.state ≠ .parked →
          set { e with pollClass := k, state := .parked, lastChange := .parked }) ∧
        (action = 2 → e.state ≠ .parked → refused 5) ∧
        (action = 2 → e.state = .parked →
          set { e with
            pollClass := k, state := .pending, lastChange := .unparked, missRun := 0
            restartPending := true, putToggle := false, acceptedToggle := true })))

/-- R21, R181: QUERY_NODE and LIST_NODES read the table and change nothing. -/
def Obligations.NodeQueriesReadTheTable : Prop :=
  ∀ (s : State) (seq : Byte), Ready s →
    (∀ b0 b1 : Byte,
      ((∀ h : Handle, decodeHandle (b1 ++ b0) = some h → isStale h s = true) →
        exec (.queryNode seq [b0, b1]) s = .next (answered 0x0A seq [b0, b1] [9] s)) ∧
      (∀ h : Handle, decodeHandle (b1 ++ b0) = some h → isStale h s = false →
        let e := s.node h.index
        let flag (v : Byte) (p : Bool) : Byte := if p then v else 0
        exec (.queryNode seq [b0, b1]) s = .next (answered 0x0A seq [b0, b1]
          ([0, b0, b1, e.state.code, lineCode e.line, e.address.zeroExtend 8] ++
            (match e.identity with
              | none => [0, 0, 0, 0, 0]
              | some x => 1 :: le32 x) ++
            [e.pollClass.code, BitVec.ofNat 8 e.missRun, flag 1 e.putToggle,
              flag 1 e.acceptedToggle,
              flag 1 e.restartPending + flag 2 e.morePending + flag 4 e.noticePending,
              e.changeCount, e.lastChange.code] ++ le16 e.goodReplies ++ le16 e.misses) s))) ∧
    (∀ l : Line,
      let listed := entryIndexes.filter fun i => (s.node i).line == l &&
        (s.node i).state != .free && !(s.node i).removalPending
      exec (.listNodes seq [lineCode l]) s = .next (answered 0x0B seq [lineCode l]
        ([0, BitVec.ofNat 8 listed.length] ++ (listed.map fun i =>
          le16 (Handle.number ⟨i, (s.node i).generation⟩) ++ [(s.node i).state.code]).flatten) s))

/-! ### Transfers -/

/-- R29, R30, R182: an accepted SUBMIT fills the FREE record of lowest index and joins the tail of
its queue; the reply gives its place, and a scheduler that waits makes its choice. -/
def Obligations.SubmitQueuesARecord : Prop :=
  ∀ (s : State) (seq t0 t1 h0 h1 budget d0 d1 : Byte) (payload : List Byte) (l : Line)
    (kind : TransferKind) (p : Priority) (target : Option Handle) (r : RecordIndex),
    Ready s → PoolOk s →
    let body := [lineCode l, t0, t1, kind.code, p.code, h0, h1, budget, d0, d1] ++ payload
    let tag : Word16 := t1 ++ t0
    let deadline : Word16 := d1 ++ d0
    tag ≠ 0 → budget.toNat ≤ 7 → payload.length ≤ 48 → (kind ≠ .take → payload ≠ []) →
    (match target with
      | none => kind = .sendAll ∧ (h1 ++ h0 : Word16) = 0xFFFF
      | some h => kind ≠ .sendAll ∧ decodeHandle (h1 ++ h0) = some h ∧ isStale h s = false ∧
          (s.node h.index).state ≠ .lost ∧ (s.node h.index).line = l) →
    (s.line l).guard.lineState ≠ .down → (s.line l).guard.lineState ≠ .stopping →
    (s.record r).state = .free → (∀ q : RecordIndex, q < r → (s.record q).state ≠ .free) →
    (∀ q : RecordIndex, (s.record q).state ≠ .free → (s.record q).tag ≠ tag) →
    let b := s.line l
    let u := (s.setRecord r
      { state := .queued, tag := tag, line := l, target := target, kind := kind, priority := p
        payload := payload, retryBudget := budget.toNat, attempts := 0
        deadline := if deadline = 0 then none else some deadline
        deadlineTimer := if deadline = 0 then none else some (deadline.toNat * millisecond)
        result := none, replyData := none, nakReason := none }).setLine l
      (match p with
        | .urgent => { b with urgent := b.urgent ++ [r] }
        | .normal => { b with normal := b.normal ++ [r] })
    exec (.submit seq body) s = .next (answered 0x0C seq body
      [0, t0, t1, BitVec.ofNat 8 ((b.queue p).length + 1)] (choose l u))

/-- R29, R182: the checks of SUBMIT in their order, each refusing without a change. -/
def Obligations.SubmitChecksInOrder : Prop :=
  ∀ (s : State) (seq line t0 t1 kind p h0 h1 budget d0 d1 : Byte) (payload : List Byte),
    Ready s → payload.length ≤ 48 →
    let body := [line, t0, t1, kind, p, h0, h1, budget, d0, d1] ++ payload
    let tag : Word16 := t1 ++ t0
    let given := (h1 ++ h0 : Word16) ≠ 0xFFFF
    let badField := 1 < line.toNat ∨ tag = 0 ∨ 2 < kind.toNat ∨ 1 < p.toNat ∨ 7 < budget.toNat ∨
      (kind = 2 ∧ given) ∨ (kind ≠ 2 ∧ ¬ given) ∨ (kind ≠ 1 ∧ payload = [])
    let refused (st : Byte) : Prop :=
      exec (.submit seq body) s = .next (answered 0x0C seq body [st] s)
    (badField → refused 3) ∧
    (¬ badField → ∀ l : Line, line = lineCode l →
      let stopped :=
        (s.line l).guard.lineState = .down ∨ (s.line l).guard.lineState = .stopping
      let full := ∀ r : RecordIndex, (s.record r).state ≠ .free
      let held := ∃ r : RecordIndex, (s.record r).state ≠ .free ∧ (s.record r).tag = tag
      (stopped → refused 6) ∧ (¬ stopped → full → refused 10) ∧
      (¬ stopped → ¬ full → held → refused 11) ∧
      (¬ stopped → ¬ full → ¬ held → kind ≠ 2 →
        ((∀ h : Handle, decodeHandle (h1 ++ h0) = some h → isStale h s = true) → refused 9) ∧
        (∀ h : Handle, decodeHandle (h1 ++ h0) = some h → isStale h s = false →
          ((s.node h.index).state = .lost → refused 12) ∧
          ((s.node h.index).state ≠ .lost → (s.node h.index).line ≠ l → refused 3))))

/-- R42, R47, R183: CANCEL completes a QUEUED record CANCELLED; QUERY_TRANSFER reads the record that
holds the tag. -/
def Obligations.CancelAndQueryFindTheTag : Prop :=
  ∀ (s : State) (seq t0 t1 : Byte), Ready s → PoolOk s →
    let tag : Word16 := t1 ++ t0
    ((∀ r : RecordIndex, (s.record r).state ≠ .free → (s.record r).tag ≠ tag) →
      exec (.cancel seq [t0, t1]) s = .next (answered 0x0D seq [t0, t1] [13] s) ∧
        exec (.queryTransfer seq [t0, t1]) s = .next (answered 0x0E seq [t0, t1] [13] s)) ∧
    (∀ r : RecordIndex, (s.record r).state ≠ .free → (s.record r).tag = tag →
      let x := s.record r
      let b := s.line x.line
      let place : Nat := match (b.queue x.priority).findIdx? (· == r) with
        | some n => n + 1
        | none => 0
      exec (.queryTransfer seq [t0, t1]) s = .next (answered 0x0E seq [t0, t1]
        [0, x.state.code, x.kind.code, lineCode x.line, x.priority.code,
          BitVec.ofNat 8 x.attempts, BitVec.ofNat 8 place,
          match x.result with
          | none => 0xFF
          | some o => o.code] s) ∧
      (x.state = .completed →
        exec (.cancel seq [t0, t1]) s = .next (answered 0x0D seq [t0, t1] [13] s)) ∧
      (x.state = .inFlight →
        exec (.cancel seq [t0, t1]) s = .next (answered 0x0D seq [t0, t1] [14] s)) ∧
      (x.state = .queued →
        let left := (s.setRecord r (completedWith .cancelled x)).setLine x.line
          { b with urgent := b.urgent.erase r, normal := b.normal.erase r }
        exec (.cancel seq [t0, t1]) s = .next (answered 0x0D seq [t0, t1] [0, t0, t1]
          { left with reports := enqueueAll [.completion r] s.reports })))

/-! ### Discovery -/

/-- R101, R184: DISCOVER starts a run with the range of every identity; its checks in order. -/
def Obligations.DiscoverStartsARun : Prop :=
  ∀ (s : State) (seq : Byte) (l : Line), Ready s →
    let b := s.line l
    let c := Instr.discover seq [lineCode l]
    (b.discovery.active = true →
      exec c s = .next (answered 0x0F seq [lineCode l] [15] s)) ∧
    (b.discovery.active = false → b.guard.lineState ≠ .running →
      exec c s = .next (answered 0x0F seq [lineCode l] [6] s)) ∧
    (b.discovery.active = false → b.guard.lineState = .running →
      exec c s = .next (answered 0x0F seq [lineCode l] [0]
        (choose l (s.setLine l { b with discovery := { b.discovery with
          active := true, stopPending := .none, stack := [⟨0, 0, 0⟩], bid := none
          assignment := none, found := 0, reassigned := 0, clashes := 0, unresponsive := 0 } }))))

/-- R112, R113, R184: STOP_DISCOVERY ends the run CANCELLED at once, or at the end of its step's
exchange; R112: what the end of a run does. -/
def Obligations.StopDiscoveryEndsTheRun : Prop :=
  ∀ (s : State) (seq : Byte) (l : Line), Ready s →
    let b := s.line l
    let d := b.discovery
    let c := Instr.stopDiscovery seq [lineCode l]
    (d.active = false ∨ d.stopPending ≠ .none →
      exec c s = .next (answered 0x10 seq [lineCode l] [5] s)) ∧
    (d.active = true → d.stopPending = .none → b.scheduler.stepInProgress = true →
      exec c s = .next (answered 0x10 seq [lineCode l] [0, 0]
        (s.setLine l { b with discovery := { d with stopPending := .cancelled } }))) ∧
    (d.active = true → d.stopPending = .none → b.scheduler.stepInProgress = false →
      ∃ u : State,
        exec c s = .next (answered 0x10 seq [lineCode l] [0, 1] u) ∧
        u.line l = { b with discovery := { d with
          active := false, stack := [], bid := none, assignment := none, noticePending := true
          lastResult := some ⟨.cancelled, d.found, d.reassigned, d.clashes, d.unresponsive⟩ } } ∧
        (∀ i : EntryIndex, u.node i = afterRunNode d i (s.node i)) ∧
        u.reports = enqueueAll [.discovery l] s.reports ∧ u.records = s.records ∧
        u.slots = s.slots ∧ KeptOutside l s u)

/-! ### Line frames and characters -/

/-- R66 to R68, R70, Table 12-7: the characters of every master frame: the head alone with its mark
bit 1, then control, length, payload and check, low byte first. -/
def Obligations.MasterFramesAreLaidOut : Prop :=
  ∀ f : MasterFrame,
    let bit (v : Byte) (p : Bool) : Byte := if p then v else 0
    let size (p : List Byte) : Byte := BitVec.ofNat 8 p.length
    let head : Byte := match f with
      | .poll a _ _ _ => 0x80 + a.zeroExtend 8
      | .put a _ _ _ => 0x80 + a.zeroExtend 8
      | .take a _ _ => 0x80 + a.zeroExtend 8
      | .sendAll _ => 0x80
      | .invite _ _ => 0xFE
      | .assign _ _ => 0xFE
    let rest : List Byte := match f with
      | .poll _ ack hold restart => [1 + bit 32 ack + bit 64 hold + bit 128 restart, 0]
      | .put _ toggle restart p => [2 + bit 16 toggle + bit 128 restart, size p] ++ p
      | .take _ restart p => [3 + bit 128 restart, size p] ++ p
      | .sendAll p => [4, size p] ++ p
      | .invite n v => [5, 5, BitVec.ofNat 8 n] ++ le32 v
      | .assign x a => [6, 5] ++ le32 x ++ [a.zeroExtend 8]
    (∀ (n : Nat) (v : BitVec 32), f = .invite n v → n ≤ 32 ∧ v <<< n = 0#32) →
    f.characters = (head, true) :: (rest ++ le16 (crc (head :: rest))).map fun b => (b, false)

/-- R69, R70, R79, Tables 4-3 and 4-5: a reply of a kind, source and length that the master frame
calls for is REPLY with its contents; one of another kind or source, with a wrong check, with the
direction bit of a master, with a kind code of no node frame or with a length or a NAK reason that does
not fit its kind is BAD_REPLY. -/
def Obligations.RepliesAreJudged : Prop :=
  ∀ f : MasterFrame,
    let full (p : List Byte) : Prop := 1 ≤ p.length ∧ p.length ≤ 48
    let called (src : Address) (c : NodeReply) : Prop := match f, c with
      | .poll a _ _ _, .data _ _ p => src = a ∧ full p
      | .poll a _ _ _, .empty _ => src = a
      | .poll a _ _ _, .nak why => src = a ∧ why = .busy
      | .put a _ _ _, .ack => src = a
      | .put a _ _ _, .nak _ => src = a
      | .take a _ _, .data _ _ p => src = a ∧ full p
      | .take a _ _, .nak _ => src = a
      | .invite _ _, .bid _ => src = 126
      | .assign _ a, .ack => src = a
      | _, _ => False
    (∀ (src : Address) (c : NodeReply), called src c →
      judgeReply f (replyBytes src c) = .reply c) ∧
    (∀ (src : Address) (c : NodeReply), ¬ called src c →
      (∀ (t m : Bool) (p : List Byte), c = .data t m p → p.length ≤ 255) →
      judgeReply f (replyBytes src c) = .badReply) ∧
    (∀ (head control length low high : Byte) (payload : List Byte),
      payload.length = length.toNat →
      let kind := (control &&& 0x0F).toNat
      ([low, high] ≠ le16 (crc (head :: control :: length :: payload)) ∨ 0x80 ≤ head.toNat ∨
        kind < 8 ∨ 12 < kind ∨ (kind = 8 ∨ kind = 11) ∧ payload ≠ [] ∨
        kind = 9 ∧ payload ≠ [1] ∧ payload ≠ [2] ∨
        kind = 10 ∧ (payload = [] ∨ 48 < payload.length) ∨ kind = 12 ∧ payload.length ≠ 4) →
      judgeReply f (head :: control :: length :: payload ++ [low, high]) = .badReply)

/-- R120, R135 to R137, R139, R141: what the receiver's events do to it, to the gap timer and to the
dominant run: a start is verified or rejected in START alone, and SEARCH is armed once and by recessive
level. An armed receiver that finds dominant level and the dominant run are log entries 14 and 29, and
an event that cannot occur does nothing by log entry 2. -/
def Obligations.ReceiverEventsMoveTheReceiver : Prop :=
  ∀ (s : State) (l : Line), s.resetPin = .high →
    let b := s.line l
    let g := b.guard
    (b.receiver.state = .start →
      (∀ noisy : Bool, exec (.startVerified l noisy) s = .next (s.setLine l { b with
        receiver := ⟨.bits, noisy⟩
        engine := match b.engine with
          | .receiving x got _ => .receiving x got none
          | e => e })) ∧
      exec (.falseStart l) s = .next (s.setLine l { b with
        receiver := ⟨if b.pins.rx = .dominant then .start else .searchArmed, false⟩
        guard := { g with counters := { g.counters with
          falseStarts := satInc g.counters.falseStarts } } })) ∧
    (b.receiver.state ≠ .start → (∀ noisy : Bool, exec (.startVerified l noisy) s = .next s) ∧
      exec (.falseStart l) s = .next s) ∧
    (b.receiver.state = .searchUnarmed → b.pins.rx = .recessive →
      exec (.receiverArmed l) s = .next (s.setLine l { b with
        receiver := { b.receiver with state := .searchArmed } })) ∧
    (b.receiver.state ≠ .searchUnarmed ∨ b.pins.rx = .dominant →
      exec (.receiverArmed l) s = .next s) ∧
    (∀ v : Level, exec (.lineLevelChange l v) s = .next (s.setLine l { b with
      pins := { b.pins with rx := v }
      receiver :=
        if b.receiver.state = .searchArmed ∧ v = .dominant then { b.receiver with state := .start }
        else b.receiver
      guard := { g with
        stuckRun :=
          if v = .dominant ∧ (g.lineState = .running ∨ g.lineState = .stopping) ∧ b.pins.de = false
          then some (g.stuckRun.getD (4 * charTime g.params))
          else none } }))

/-- R76 to R79, R84, R88, R135, R137, R138, R142, R143: what a completed character does at the receiver
and, by the engine's state, to the exchange; with DE off the last echo of a frame ends it, or is
contention. The receiver's next state, the gap timer set at the completion (R141 has the stop end) and
REPLY_COMPLETE are log entries 14, 15 and 16; a receiver with no character in progress completes none
(log entry 2). -/
def Obligations.LineCharactersReachTheEngine : Prop :=
  ∀ (s : State) (l : Line) (bits : Samples 10), s.resetPin = .high →
    let b := s.line l
    let data : Byte := bits.value.extractLsb' 0 8
    let mark := bits.value.getLsbD 8
    let good := bits.value.getLsbD 9
    let noisy := b.receiver.startNoisy = true ∨ ¬ (bits.s4 = bits.s5 ∧ bits.s5 = bits.s6)
    let gap : Timer := some (b.guard.params.gapLimit.toNat * charTime b.guard.params)
    let taken (e : Engine) : State := s.setLine l { b with
      engine := e
      receiver := ⟨if good then if b.pins.rx = .dominant then .start else .searchArmed
        else .searchUnarmed, false⟩
      guard := { b.guard with counters := { b.guard.counters with
        noisyCharacters := if noisy then satInc b.guard.counters.noisyCharacters
          else b.guard.counters.noisyCharacters } } }
    let received := exec (.lineCharacterReceived l bits) s
    let now (e : Engine) : Prop := received = .next (arbitrate (taken e))
    let fixed (o : ExchangeOutcome) : Prop :=
      received = .next (arbitrate (fixOutcome l o (taken b.engine)))
    (b.receiver.state ≠ .bits → b.receiver.state ≠ .stop → received = .next (arbitrate s) ∧
      exec (.replyComplete l bits) s = .next (arbitrate s)) ∧
    (b.receiver.state = .bits ∨ b.receiver.state = .stop →
      (b.engine = .idle → now .idle) ∧
      (∀ (x : Exchange) (o : ExchangeOutcome) (d : Duration), b.engine = .guard x o d →
        now (.guard x o d)) ∧
      (∀ (x : Exchange) (n : Nat), b.engine = .sending x n true → now (.sending x n true)) ∧
      (∀ (x : Exchange) (n : Nat) (sent : Byte × Bool), b.engine = .sending x n false →
        x.frame.characters[n]? = some sent →
        let same := good = true ∧ sent = (data, mark)
        (b.pins.de = true → now (if same then .sending x (n + 1) false else .sending x n true)) ∧
        (b.pins.de = false → same →
          received = exec (.frameSent l) (taken (.sending x (n + 1) false))) ∧
        (b.pins.de = false → ¬ same → received = exec (.echoContention l) (taken b.engine))) ∧
      (∀ (x : Exchange) (n : Nat), b.engine = .sending x n false → x.frame.characters.length ≤ n →
        now (.sending x n false)) ∧
      (∀ (x : Exchange) (w : Timer), b.engine = .awaiting x w →
        (good = true → mark = true → now (.receiving x [data] gap)) ∧
        (good = true → mark = false → w ≠ none → now (.awaiting x w)) ∧
        (good = true → mark = false → w = none → fixed .noReply) ∧
        (good = false → fixed .badReply)) ∧
      (∀ (x : Exchange) (got : List Byte) (t : Timer), b.engine = .receiving x got t →
        let due := ∃ (head control n : Byte) (rest : List Byte),
          got = head :: control :: n :: rest ∧ rest.length = n.toNat + 1
        (good = false ∨ mark = true → fixed .badReply) ∧
        (good = true → mark = false → due → fixed (judgeReply x.frame (got ++ [data])) ∧
          exec (.replyComplete l bits) s = received) ∧
        (good = true → mark = false → ¬ due →
          (got.length = 2 → 48 < data.toNat → fixed .badReply) ∧
          (got.length ≠ 2 ∨ data.toNat ≤ 48 → now (.receiving x (got ++ [data]) gap)))))

/-! ### Exchanges and their outcomes -/

/-- R74, R75, R77, R78, R121, R132, R141, R143: which outcome each event of an exchange fixes, the
window that opens at a frame's end with every echo matched, DE released at the last stop bit's end with
the last echo outstanding, and the fault at the third CONTENTION in a row. FRAME_SENT as the end of that
bit on TX is log entry 13, the dominant run log entry 29. -/
def Obligations.EventsFixOutcomes : Prop :=
  ∀ (s : State) (l : Line) (x : Exchange), s.resetPin = .high →
    let b := s.line l
    let watched := b.guard.lineState = .running ∨ b.guard.lineState = .stopping
    let fixed (c : Instr) (o : ExchangeOutcome) : Prop :=
      exec c s = .next (arbitrate (fixOutcome l o s))
    let released : LineBlock := if b.pins.de = true then { b with
        pins := { b.pins with tx := .rest, de := false }
        guard := { b.guard with stuckRun := b.runOnRelease } }
      else b
    (∀ n : Nat, b.engine = .sending x n false →
      (x.frame.characters.length ≤ n →
        (∀ p : List Byte, x.frame = .sendAll p → fixed (.frameSent l) .sent) ∧
        ((∀ p : List Byte, x.frame ≠ .sendAll p) →
          let window := b.guard.params.replyTimeout.toNat * charTime b.guard.params
          let u := s.setLine l { released with engine := .awaiting x (some window) }
          exec (.frameSent l) s = .next (arbitrate (match x.carried with
            | .poll h _ => u.setNode h.index { s.node h.index with morePending := false }
            | _ => u)))) ∧
      (x.frame.characters.length = n + 1 →
        exec (.frameSent l) s = .next (arbitrate (s.setLine l released))) ∧
      (n + 1 < x.frame.characters.length → exec (.frameSent l) s = .next (arbitrate s))) ∧
    (∀ n : Nat, b.engine = .sending x n true → exec (.frameSent l) s = .next (arbitrate s)) ∧
    (∀ (n : Nat) (d : Bool), b.engine = .sending x n d →
      (b.guard.contentionRun < 2 ∨ ¬ watched → fixed (.echoContention l) .contention) ∧
      (2 ≤ b.guard.contentionRun → watched → exec (.echoContention l) s =
        .next (arbitrate (enterFaulted l .contention (fixOutcome l .contention s))))) ∧
    (∀ d : Duration, b.engine = .awaiting x (some d) →
      (b.receiver.state ≠ .bits → b.receiver.state ≠ .stop →
        fixed (.replyWindowExpiry l) .noReply) ∧
      (b.receiver.state = .bits ∨ b.receiver.state = .stop →
        exec (.replyWindowExpiry l) s =
          .next (arbitrate (s.setLine l { b with engine := .awaiting x none })))) ∧
    (∀ (got : List Byte) (d : Duration), b.engine = .receiving x got (some d) →
      fixed (.gapLimitExceeded l) .badReply)

/-- R81, R85, R117, R120, R121, Table 4-6: what a fixed outcome does at its own line, and that
nothing outside the line's blocks and the tables of its owners changes; an outcome already fixed
stands. The dominant run is log entry 29. -/
def Obligations.OutcomeIsFixedAtTheLine : Prop :=
  ∀ (s : State) (l : Line) (o : ExchangeOutcome),
    let b := s.line l
    let g := b.guard
    let u := fixOutcome l o s
    let v := u.line l
    (b.engine.unfixed = none → u = s) ∧
    (∀ x : Exchange, b.engine.unfixed = some x →
      (∀ r : RecordIndex, x.carried.record = some r → (s.record r).line = l) →
      v = { b with
        engine := if o = .aborted then .idle
          else .guard x o (g.params.guardTime.toNat * charTime g.params)
        pins := if b.pins.de = true then { b.pins with tx := .rest, de := false } else b.pins
        guard := { g with
          stuckRun := if b.pins.de = true then b.runOnRelease else g.stuckRun
          contentionRun := match o with
            | .contention => g.contentionRun + 1
            | .lineFault => g.contentionRun
            | .aborted => g.contentionRun
            | _ => 0
          counters := { g.counters with
            noReply := if o = .noReply then satInc g.counters.noReply else g.counters.noReply
            badReply := if o = .badReply then satInc g.counters.badReply else g.counters.badReply
            contention :=
              if o = .contention then satInc g.counters.contention else g.counters.contention
            duplicates := v.guard.counters.duplicates } }
        discovery := v.discovery
        urgent := v.urgent
        normal := v.normal } ∧
      ((∀ (h : Handle) (k : Option SlotIndex), x.carried ≠ .poll h k) →
        v.guard.counters.duplicates = g.counters.duplicates ∧ u.slots = s.slots) ∧
      (x.carried ≠ .invite → (∀ t : Option Handle, x.carried ≠ .assign t) →
        v.discovery = b.discovery) ∧
      (x.carried = .invite ∨ (∃ t : Option Handle, x.carried = .assign t) →
        v.urgent = b.urgent ∧ v.normal = b.normal ∧ u.records = s.records) ∧
      KeptOutside l s u)

/-- R8 to R16, Table 1-2: what the outcome of a POLL, PUT or TAKE makes of its target entry, whether
a notice is raised and whether the node is LOST. That a reply is `late` by its frame's restart flag and
the entry's restart pending is log entry 12, the model's reading. -/
def Obligations.EntryOutcomesFollowTheirRules : Prop :=
  ∀ (f : MasterFrame) (o : ExchangeOutcome) (limit : Nat) (e : NodeEntry),
    let becomes (e1 : NodeEntry) (notice lost : Bool) : Prop :=
      entryOutcome f o limit e = ⟨e1, notice, lost⟩
    let missed := { e with misses := satInc e.misses }
    let lost := { missed with
      state := .lost, lastChange := .lost, missRun := limit, restartPending := true
      putToggle := false, acceptedToggle := true }
    (e.state = .free ∨ e.removalPending = true → becomes e false false) ∧
    (e.state ≠ .free → e.removalPending = false →
      (o = .contention ∨ o = .lineFault ∨ o = .sent → becomes e false false) ∧
      (o = .aborted → (f.isPut = false → becomes e false false) ∧ (f.isPut = true →
        becomes { e with restartPending := true, putToggle := false, acceptedToggle := true }
          false false)) ∧
      (o = .noReply ∨ o = .badReply →
        (e.state = .parked ∨ e.state = .lost → becomes missed false false) ∧
        (e.state = .pending ∨ e.state = .silent → e.missRun + 1 < limit →
          becomes { missed with missRun := e.missRun + 1 } false false) ∧
        (e.state = .active → e.missRun + 1 < limit →
          becomes { missed with missRun := e.missRun + 1, state := .silent, lastChange := .missed }
            true false) ∧
        (e.state = .pending ∨ e.state = .silent ∨ e.state = .active → limit ≤ e.missRun + 1 →
          becomes lost true true)) ∧
      (∀ c : NodeReply, o = .reply c →
        let late := f.restart = false ∧ e.restartPending = true
        let more := match c with
          | .data _ m _ => m
          | .empty m => m
          | _ => false
        let counted := { e with
          goodReplies := satInc e.goodReplies
          putToggle := if f.isPut = true ∧ c = .ack ∧ ¬ late then !e.putToggle else e.putToggle
          morePending := e.morePending || more }
        let answered := { counted with
          missRun := 0
          restartPending := if f.restart = true then false else e.restartPending }
        (e.state = .parked → becomes counted false false) ∧
        (e.state = .active → becomes answered false false) ∧
        (e.state = .pending ∨ e.state = .silent ∨ e.state = .lost →
          becomes { answered with state := .active, lastChange := .replied } true false)))

/-- R8, R15, R39, R82, R92 to R97, Table 5-3: what a POLL's outcome does to its target entry, its
slot, the report queue and the records aimed at a node it makes LOST. That data is `late` by its frame's
restart flag and the entry's restart pending is log entry 12, the model's reading. -/
def Obligations.PollOutcomeReachesItsOwners : Prop :=
  ∀ (s : State) (l : Line) (h : Handle) (slot : Option SlotIndex) (a : Address)
    (ack hold restart : Bool) (o : ExchangeOutcome),
    let b := s.line l
    let f := MasterFrame.poll a ack hold restart
    let e := s.node h.index
    let r := entryOutcome f o b.guard.params.missLimit.toNat e
    let told := if r.notice then noted r.entry else r.entry
    let hit (q : RecordIndex) : Bool := r.lost && (s.record q).aimedAt h.index
    let u := fixOutcome l o s
    let duplicates (t : State) : Word16 := (t.line l).guard.counters.duplicates
    let common (e1 : NodeEntry) (sources : List Source) : Prop :=
      (∀ i : EntryIndex, u.node i = if i = h.index then e1 else s.node i) ∧
      (∀ q : RecordIndex, u.record q =
        if q ∈ b.queued.filter hit then completedWith .nodeLost (s.record q) else s.record q) ∧
      (u.line l).urgent = b.urgent.filter (fun q => !hit q) ∧
      (u.line l).normal = b.normal.filter (fun q => !hit q) ∧
      u.reports = enqueueAll ((if r.notice then [.node h.index] else []) ++
        (b.queued.filter hit).map Source.completion ++ sources) s.reports
    let freed := ∀ k : SlotIndex, u.slot k =
      if slot = some k then { s.slot k with state := .free } else s.slot k
    b.engine.unfixed = some ⟨f, .poll h slot⟩ → e.state ≠ .free →
    ((e.removalPending = true ∨ ∀ (t m : Bool) (p : List Byte), o ≠ .reply (.data t m p)) →
      common told [] ∧ freed ∧ duplicates u = duplicates s) ∧
    (e.removalPending = false → ∀ (t m : Bool) (p : List Byte), o = .reply (.data t m p) →
      let late := e.restartPending = true ∧ restart = false
      (late → common { told with morePending := true } [] ∧ freed ∧
        duplicates u = duplicates s) ∧
      (¬ late → t = e.acceptedToggle → common told [] ∧ freed ∧
        duplicates u = satInc (duplicates s)) ∧
      (¬ late → t ≠ e.acceptedToggle →
        (slot = none → common { told with morePending := true } [] ∧ u.slots = s.slots ∧
          duplicates u = duplicates s) ∧
        (∀ k : SlotIndex, slot = some k →
          common { told with acceptedToggle := t } [.data k] ∧
          (∀ j : SlotIndex, u.slot j = if j = k then { s.slot k with state := .filled, payload := p }
            else s.slot j) ∧ duplicates u = duplicates s)))

/-- R33 to R40, R43, R48, Table 2-3: what the outcome of a PUT, TAKE or SEND_ALL does to its record,
its target entry, the queues and the report queue. -/
def Obligations.TransferOutcomeReachesItsOwners : Prop :=
  ∀ (s : State) (l : Line) (f : MasterFrame) (r : RecordIndex) (target : Option Handle)
    (o : ExchangeOutcome),
    let b := s.line l
    let x := s.record r
    let effect (h : Handle) : EntryEffect :=
      entryOutcome f o b.guard.params.missLimit.toNat (s.node h.index)
    let gone := target.any fun h => (s.node h.index).removalPending
    let lost := target.any fun h => (effect h).lost
    let notices : List Source :=
      ((target.filter fun h => (effect h).notice).map fun h => Source.node h.index).toList
    let hit (q : RecordIndex) : Bool :=
      lost && target.any fun h => (s.record q).aimedAt h.index
    let counts := o ≠ .contention ∧ o ≠ .lineFault ∧ o ≠ .aborted
    let n := if counts then x.attempts + 1 else x.attempts
    let u := fixOutcome l o s
    let completes (result : TransferResult) (data : Option (List Byte)) (nak : Option NakReason) :
        Prop :=
      (∀ q : RecordIndex, u.record q =
        if q = r then { x with
          attempts := n, state := .completed, result := some result, deadlineTimer := none
          replyData := data, nakReason := nak }
        else if q ∈ b.queued.filter hit then completedWith .nodeLost (s.record q)
        else s.record q) ∧
      (u.line l).urgent = b.urgent.filter (fun q => !hit q) ∧
      (u.line l).normal = b.normal.filter (fun q => !hit q) ∧
      u.reports = enqueueAll (notices ++ [.completion r] ++
        (b.queued.filter hit).map Source.completion) s.reports
    let requeues (urgent normal : List RecordIndex) : Prop :=
      (∀ q : RecordIndex, u.record q =
        if q = r then { x with attempts := n, state := .queued } else s.record q) ∧
      (u.line l).urgent = (if x.priority = .urgent then urgent else b.urgent) ∧
      (u.line l).normal = (if x.priority = .normal then normal else b.normal) ∧
      u.reports = enqueueAll notices s.reports
    let stays (again : Prop) : Prop :=
      (gone = true → completes .nodeGone none none) ∧
      (gone = false → b.guard.lineState = .stopping → completes .aborted none none) ∧
      (gone = false → b.guard.lineState ≠ .stopping → again)
    let retries (result : TransferResult) (nak : Option NakReason) : Prop :=
      (x.retryBudget < n → completes result none nak) ∧
      (n ≤ x.retryBudget → stays (requeues (b.urgent ++ [r]) (b.normal ++ [r])))
    PoolOk s → b.engine.unfixed = some ⟨f, .transfer r target⟩ →
    (∀ i : EntryIndex, u.node i = match target with
      | some h => if i = h.index then
          if (effect h).notice then noted (effect h).entry else (effect h).entry
        else s.node i
      | none => s.node i) ∧
    (lost = true → completes .nodeLost none none) ∧
    (lost = false →
      (o = .sent ∨ o = .reply .ack → completes .done none none) ∧
      (∀ (t m : Bool) (p : List Byte), o = .reply (.data t m p) → completes .done (some p) none) ∧
      (o = .reply (.nak .refused) → completes .rejected none (some .refused)) ∧
      (o = .reply (.nak .busy) → retries .busy (some .busy)) ∧
      (o = .noReply ∨ o = .badReply → retries .noAnswer none) ∧
      (o = .aborted → completes .aborted none none) ∧
      (o = .contention ∨ o = .lineFault → stays (requeues (r :: b.urgent) (r :: b.normal))))

/-! ### Discovery's outcomes and steps -/

/-- R22, R23, R104, R105, R107, R109 to R112, Table 6-2: what the outcomes of INVITE and ASSIGN do
to the range stack, the assignment, the counts and the entry being bound; an ACK for a reused entry with
removal pending has no effect. What binds only while held is log entry 28. -/
def Obligations.DiscoveryOutcomesFollowTheirTable : Prop :=
  ∀ (s : State) (l : Line) (x : Exchange) (o : ExchangeOutcome) (top : IdRange)
    (rest : List IdRange),
    let d := (s.line l).discovery
    let u := fixOutcome l o s
    let record (d1 : Discovery) : Prop := (u.line l).discovery = d1
    let quiet := u.nodes = s.nodes ∧ u.reports = s.reports
    (s.line l).engine.unfixed = some x → d.active = true → d.stack = top :: rest →
    (x.carried = .invite → quiet ∧
      let split := { d with stack := ⟨top.value, top.length + 1, 0⟩ ::
        ⟨top.value ||| ((1 : BitVec 32) <<< (31 - top.length)), top.length + 1, 0⟩ :: rest }
      let collides := (top.length < 32 → record split) ∧ (32 ≤ top.length →
        record { d with stack := rest, clashes := satInc d.clashes })
      (o = .noReply → record { d with stack := rest }) ∧
      (o = .badReply → collides) ∧
      (∀ y : Identity, o = .reply (.bid y) →
        let inRange := y >>> (32 - top.length) = top.value >>> (32 - top.length)
        (inRange → record { d with bid := some y }) ∧ (¬ inRange → collides)) ∧
      (o = .contention ∨ o = .lineFault ∨ o = .aborted → record d)) ∧
    (∀ (t : Option Handle) (a : Assignment), x.carried = .assign t → d.assignment = some a →
      let e := s.node a.entry
      let bound := { d with
        stack := { top with failures := 0 } :: rest, assignment := none, bid := none }
      let binds (e1 : NodeEntry) (d1 : Discovery) : Prop :=
        (∀ i : EntryIndex, u.node i = if i = a.entry then noted e1 else s.node i) ∧
        u.reports = enqueueAll [.node a.entry] s.reports ∧ record d1
      (o = .lineFault ∨ o = .aborted → quiet ∧ record d) ∧
      (∀ c : NodeReply, o = .reply c →
        (a.claimed = true → e.assignHold = true →
          binds { e with
            state := .active, lastChange := .assigned, assignHold := false, putToggle := false
            acceptedToggle := true, restartPending := false, morePending := false, missRun := 0
            pollClass := .steady, goodReplies := 0, misses := 0 }
            { bound with found := satInc d.found }) ∧
        (a.claimed = false → e.state ≠ .free → e.removalPending = false →
          binds { e with
            state := if e.state = .parked then .parked else .active
            lastChange := .reassigned, putToggle := false, acceptedToggle := true
            restartPending := false, morePending := false, missRun := 0 }
            { bound with reassigned := satInc d.reassigned }) ∧
        (a.claimed = false → e.removalPending = true → quiet ∧ record d) ∧
        (a.claimed = true ∧ e.assignHold = false ∨ a.claimed = false ∧ e.state = .free →
          quiet ∧ record d)) ∧
      (o = .noReply ∨ o = .badReply ∨ o = .contention →
        (a.claimed = false ∧ e.removalPending = true → quiet ∧ record d) ∧
        (a.claimed = true ∨ e.removalPending = false →
          (a.sent < 3 → quiet ∧ record d) ∧
          (3 ≤ a.sent → u.reports = s.reports ∧
            (∀ i : EntryIndex, u.node i = if i = a.entry ∧ a.claimed = true then
              { e with assignHold := false } else s.node i) ∧
            (top.failures < 2 → record { d with
              stack := { top with failures := top.failures + 1 } :: rest
              assignment := none, bid := none }) ∧
            (2 ≤ top.failures → record { d with
              stack := rest, unresponsive := satInc d.unresponsive
              assignment := none, bid := none })))))

/-- R23, R102, R108 to R110, R113: at the end of a step's exchange, the run's end, the ASSIGN that
follows, or the step's end. -/
def Obligations.DiscoveryStepGoesOn : Prop :=
  ∀ (s : State) (l : Line) (c : Carried),
    let b := s.line l
    let d := b.discovery
    let u := continueStep l c s
    let ends := u = s.setLine l { b with
      scheduler := { b.scheduler with stepInProgress := false } }
    let assigns (t : State) (a : Assignment) (y : Identity) (reused : Option Handle) : Prop :=
      u = t.setLine l { b.sends ⟨.assign y a.address, .assign reused⟩ with
        discovery := { d with assignment := some a } }
    (d.stack = [] → u = endRun l .done s) ∧
    (d.stack ≠ [] → d.stopPending = .cancelled → u = endRun l .cancelled s) ∧
    (d.stack ≠ [] → d.stopPending = .lineStopped → u = endRun l .lineStopped s) ∧
    (d.stack ≠ [] → d.stopPending = .none →
      (d.bid = none → ends) ∧
      (∀ y : Identity, d.bid = some y →
        let holds (i : EntryIndex) : Prop := (s.node i).line = l ∧ (s.node i).state ≠ .free ∧
          (s.node i).identity = some y
        let free (a : Address) : Prop := b.guard.params.assignLow.toNat ≤ a.toNat ∧
          a.toNat ≤ b.guard.params.assignHigh.toNat ∧ ∀ i : EntryIndex, (s.node i).address = a →
            (s.node i).line = l → (s.node i).state = .free ∧ (s.node i).assignHold = false
        let allocatable (i : EntryIndex) : Prop := (s.node i).state = .free ∧
          (s.node i).noticePending = false ∧ (s.node i).assignHold = false
        (c = .invite →
          (∀ i : EntryIndex, holds i → (∀ j : EntryIndex, j < i → ¬ holds j) →
            assigns s ⟨i, false, (s.node i).address, 1⟩ y (some ⟨i, (s.node i).generation⟩)) ∧
          ((∀ i : EntryIndex, ¬ holds i) →
            ((∀ i : EntryIndex, ¬ allocatable i) → u = endRun l .tableFull s) ∧
            (∀ i : EntryIndex, allocatable i → (∀ j : EntryIndex, j < i → ¬ allocatable j) →
              ((∀ a : Address, ¬ free a) → u = endRun l .addressPoolEmpty s) ∧
              (∀ a : Address, free a → (∀ a' : Address, a'.toNat < a.toNat → ¬ free a') →
                assigns (s.setNode i { s.node i with
                  generation := (s.node i).generation + 1, line := l, address := a
                  identity := some y, assignHold := true }) ⟨i, true, a, 1⟩ y none)))) ∧
        (∀ (t : Option Handle), c = .assign t →
          (d.assignment = none → ends) ∧
          (∀ a : Assignment, d.assignment = some a →
            (3 ≤ a.sent → ends) ∧
            (a.sent < 3 → assigns s { a with sent := a.sent + 1 } y
              (if a.claimed then none else some ⟨a.entry, (s.node a.entry).generation⟩))))))

/-- R18, R62, R84, R111, R113, R114, R126: the guard's expiry ends the exchange: a deferred removal
completes, and the line picks, goes on with its step, goes DOWN or stays FAULTED. DONE before a
pending stop in STOPPING too is log entry 17. -/
def Obligations.GuardExpiryEndsTheExchange : Prop :=
  ∀ (s : State) (l : Line) (x : Exchange) (o : ExchangeOutcome) (t : Duration),
    let b := s.line l
    let d := b.discovery
    let left := x.carried.target.filter fun h => (s.node h.index).removalPending
    let v := finishExchange l x.carried s
    let ended (u : State) : Prop := exec (.guardExpiry l) s = .next (arbitrate u)
    s.resetPin = .high → b.engine = .guard x o t →
    (v.line l = { b with engine := .idle } ∧
      (∀ i : EntryIndex, v.node i = if left.any (fun h => h.index == i) then
        noted { s.node i with state := .free, removalPending := false, lastChange := .removed }
        else s.node i) ∧
      v.reports = enqueueAll (left.toList.map fun h => Source.node h.index) s.reports ∧
      v.records = s.records ∧ v.slots = s.slots ∧ KeptOutside l s v) ∧
    (b.guard.lineState = .running → d.active = false ∨ b.scheduler.stepInProgress = false →
      ended (choose l v)) ∧
    (b.guard.lineState = .running → d.active = true → b.scheduler.stepInProgress = true →
      ended (choose l (continueStep l x.carried (if left = none then v
        else v.setLine l { b with
          engine := .idle, discovery := { d with assignment := none, bid := none } })))) ∧
    (b.guard.lineState = .faulted → ended v) ∧
    (b.guard.lineState = .stopping → ∃ u : State, ended u ∧
      u.line l = { b with
        engine := .idle
        guard := { b.guard with
          lineState := .down, stopAfterHold := false, faultReason := .none, holdTimer := none
          watch := .stopped, stuckRun := none, noticePending := true }
        pins := { b.pins with tx := .rest, de := false }
        scheduler := { b.scheduler with running := false, floor := .stopped, stepInProgress := false }
        discovery := if d.active = true ∧ d.stack = [] then
          afterRun { d with stopPending := .none } .done else afterRun d .lineStopped } ∧
      (∀ i : EntryIndex, u.node i = afterRunNode d i (v.node i)) ∧
      u.reports = enqueueAll (.line l :: runSources l d) v.reports ∧
      u.records = s.records ∧ u.slots = s.slots ∧ KeptOutside l s u)

/-! ### The scheduler -/

/-- R52 to R61, Tables 3-3 and 3-4: the scheduler's choice is the first step of the order whose
condition holds; one that ends the cycle chooses again in the next. An active run with an empty
stack is given no step (log entry 30). -/
def Obligations.SchedulerFollowsTheOrderOfChoice : Prop :=
  ∀ (s : State) (l : Line),
    let b := s.line l
    let k := b.scheduler
    let entitled := k.running = true ∧ b.guard.lineState = .running ∧ b.engine = .idle ∧
      k.stepInProgress = false
    let due (i : EntryIndex) : Prop :=
      let e := s.node i
      let every (n : Nat) : Prop := k.cycle.toNat % n = i.val % n
      e.line = l ∧
        ((e.state = .pending ∨ e.state = .active ∨ e.state = .silent) ∧
          (e.morePending = true ∨ e.pollClass = .fast ∨ (e.pollClass = .steady ∧ every 4) ∨
            (e.pollClass = .slow ∧ every 16)) ∨
        e.state = .lost ∧ (e.morePending = true ∨ every 32))
    let now (k1 : Scheduler) : State := s.setLine l { b with scheduler := k1 }
    let whole := { k with walk := 64 }
    let u := choose l s
    (¬ entitled → u = s) ∧
    (entitled →
      (∀ (r : RecordIndex) (q : List RecordIndex), b.urgent = r :: q → u = pickRecord l r s) ∧
      (b.urgent = [] →
        let share := b.normal ≠ [] ∧ k.interleaveCount < b.guard.params.interleave.toNat
        (∀ (r : RecordIndex) (q : List RecordIndex), share → b.normal = r :: q →
          u = pickRecord l r (now { k with interleaveCount := k.interleaveCount + 1 })) ∧
        (¬ share →
          (∀ i : EntryIndex, k.walk ≤ i.val → due i →
            (∀ j : EntryIndex, k.walk ≤ j.val → j < i → ¬ due j) → u = pickPoll l i s) ∧
          ((∀ i : EntryIndex, k.walk ≤ i.val → ¬ due i) →
            let turn := k.turnTaken = false ∧ b.discovery.active = true ∧ b.discovery.stack ≠ []
            (turn → u = openStep l (now { whole with turnTaken := true })) ∧
            (¬ turn →
              (∀ (r : RecordIndex) (q : List RecordIndex), b.normal = r :: q →
                u = pickRecord l r (now whole)) ∧
              (b.normal = [] → k.floor ≠ .elapsed → u = now whole) ∧
              (b.normal = [] → k.floor = .elapsed → u = choose l (s.setLine l { b with
                scheduler := { k with
                  cycle := k.cycle + 1, walk := 0, turnTaken := false
                  floor := .running (max (b.guard.params.cycleFloor.toNat * 73728)
                    (charTime b.guard.params)) }
                guard := { b.guard with counters := { b.guard.counters with
                  cyclesCompleted := satInc b.guard.counters.cyclesCompleted } } })))))))

/-- R32, R33, R57, R58, R63, R64, R90, R91, R103: what each pick hands to the line engine, and what
it changes beside the engine. The dominant run that DE ends is log entry 29. -/
def Obligations.PicksBuildTheirExchanges : Prop :=
  ∀ (s : State) (l : Line),
    let b := s.line l
    (∀ r : RecordIndex,
      let x := s.record r
      let frame : Option MasterFrame := match x.kind, x.target with
        | .put, some h => let e := s.node h.index
          some (.put e.address e.putToggle e.restartPending x.payload)
        | .take, some h => let e := s.node h.index
          some (.take e.address e.restartPending x.payload)
        | .sendAll, none => some (.sendAll x.payload)
        | _, _ => none
      ∀ f : MasterFrame, frame = some f →
        pickRecord l r s = (s.setRecord r { x with
            state := .inFlight, deadline := none, deadlineTimer := none }).setLine l
          { b.sends ⟨f, .transfer r x.target⟩ with
            urgent := b.urgent.erase r, normal := b.normal.erase r }) ∧
    (∀ i : EntryIndex,
      let e := s.node i
      let h : Handle := ⟨i, e.generation⟩
      let polled (t : State) (slot : Option SlotIndex) : State := t.setLine l
        { b.sends ⟨.poll e.address e.acceptedToggle (decide (slot = none)) e.restartPending,
            .poll h slot⟩ with
          scheduler := { b.scheduler with walk := i.val + 1, interleaveCount := 0 } }
      ((∀ k : SlotIndex, (s.slot k).state ≠ .free) → pickPoll l i s = polled s none) ∧
      (∀ k : SlotIndex, (s.slot k).state = .free → (∀ j : SlotIndex, j < k → (s.slot j).state ≠ .free) →
        pickPoll l i s = polled (s.setSlot k { s.slot k with
          state := .reserved, line := l, handle := h, address := e.address }) (some k))) ∧
    (∀ (top : IdRange) (rest : List IdRange), b.discovery.stack = top :: rest →
      openStep l s = s.setLine l { b.sends ⟨.invite top.length top.value, .invite⟩ with
        scheduler := { b.scheduler with stepInProgress := true } })

/-- R41, R60, R61: a deadline that passes expires its QUEUED record; a cycle floor that elapses
prompts a choice. Expiries are commands (log entry 1). -/
def Obligations.TimersExpireRecordsAndFloors : Prop :=
  ∀ s : State, s.resetPin = .high →
    (∀ r : RecordIndex,
      let x := s.record r
      let b := s.line x.line
      x.state = .queued → x.deadlineTimer ≠ none →
      let left := (s.setRecord r (completedWith .expired x)).setLine x.line
        { b with urgent := b.urgent.erase r, normal := b.normal.erase r }
      exec (.deadlineExpiry r) s = .next (arbitrate
        { left with reports := enqueueAll [.completion r] s.reports })) ∧
    (∀ (l : Line) (d : Duration), (s.line l).scheduler.floor = .running d →
      exec (.cycleFloorExpiry l) s = .next (arbitrate (choose l (s.setLine l { s.line l with
        scheduler := { (s.line l).scheduler with floor := .elapsed } }))))

/-! ### The line guard -/

/-- R62, R119, R123, R124: the wake break, the quiet, the fault hold and the recovery watch each end
in the next line state. The conditions on the RX level are log entry 18. -/
def Obligations.LinesStartAndRecover : Prop :=
  ∀ (s : State) (l : Line) (d : Duration), s.resetPin = .high →
    let b := s.line l
    let g := b.guard
    let raised (b1 : LineBlock) : State :=
      { s.setLine l { b1 with guard := { b1.guard with noticePending := true } } with
        reports := enqueueAll [.line l] s.reports }
    (g.lineState = .starting → g.watch = .wakeBreak d →
      exec (.wakeBreakEnd l) s = .next (arbitrate (s.setLine l { b with
        pins := { b.pins with tx := .rest, de := false }
        guard := { g with watch := .quiet (8 * charTime g.params) } }))) ∧
    (g.lineState = .starting → g.watch = .quiet d → b.pins.rx = .recessive →
      exec (.quietComplete l) s = .next (arbitrate (choose l (raised { b with
        guard := { g with
          lineState := .running, faultReason := .none, recoveryCount := 0, watch := .stopped }
        scheduler := { b.scheduler with
          running := true, walk := 0, turnTaken := false, interleaveCount := 0
          stepInProgress := false
          floor := .running (max (g.params.cycleFloor.toNat * 73728) (charTime g.params)) } })))) ∧
    (g.lineState = .recovering → g.watch = .recovery d → b.pins.rx = .recessive →
      exec (.recoveryWatchComplete l) s = .next (arbitrate (raised { b with
        guard := { g with
          lineState := .starting, startCause := .recovery, contentionRun := 0, holdTimer := none
          stuckRun := none, watch := .wakeBreak (2 * charTime g.params) }
        pins := { b.pins with tx := .wakeBreak, de := true } }))) ∧
    (g.lineState = .faulted → g.holdTimer = some d →
      let recovering := raised { b with guard := { g with
        lineState := .recovering, holdTimer := none, watch := .recovery (8 * charTime g.params) } }
      (b.engine = .idle → g.stopAfterHold = false → b.pins.rx = .recessive →
        exec (.faultHoldExpiry l) s = .next (arbitrate recovering)) ∧
      (b.engine = .idle → g.stopAfterHold = false → b.pins.rx = .dominant →
        exec (.faultHoldExpiry l) s =
          .next (arbitrate (enterFaulted l .recoveryNotQuiet recovering))) ∧
      (b.engine = .idle → g.stopAfterHold = true → ∃ u : State,
        exec (.faultHoldExpiry l) s = .next (arbitrate u) ∧
        u.line l = { b with
          guard := { g with
            lineState := .down, stopAfterHold := false, faultReason := .none, holdTimer := none
            watch := .stopped, stuckRun := none, noticePending := true }
          pins := { b.pins with tx := .rest, de := false }
          scheduler := { b.scheduler with
            running := false, floor := .stopped, stepInProgress := false }
          urgent := []
          normal := [] } ∧
        (∀ r : RecordIndex, u.record r =
          if r ∈ b.queued then completedWith .aborted (s.record r) else s.record r) ∧
        u.reports = enqueueAll (b.queued.map Source.completion ++ [.line l]) s.reports ∧
        u.nodes = s.nodes ∧ u.slots = s.slots ∧ KeptOutside l s u) ∧
      (∀ (x : Exchange) (o : ExchangeOutcome) (t : Duration), b.engine = .guard x o t →
        exec (.faultHoldExpiry l) s = exec (.faultHoldExpiry l) (finishExchange l x.carried s)))

/-- R62, R85, R114, R119, R120, R122 to R124: dominant level in the quiet or the recovery watch and
a stuck line enter FAULTED; what entering FAULTED does, its exchange first ending LINE_FAULT. -/
def Obligations.FaultsEnterFaulted : Prop :=
  ∀ (s : State) (l : Line),
    let b := s.line l
    let g := b.guard
    (s.resetPin = .high → ∀ d : Duration,
      (g.lineState = .starting → g.watch = .quiet d →
        exec (.dominantInQuiet l) s = .next (arbitrate (enterFaulted l .startNotQuiet s))) ∧
      (g.lineState = .recovering → g.watch = .recovery d →
        exec (.dominantInRecoveryWatch l) s =
          .next (arbitrate (enterFaulted l .recoveryNotQuiet s))) ∧
      (g.lineState = .running ∨ g.lineState = .stopping → b.pins.de = false →
        g.stuckRun = some d →
        exec (.stuckDominant l) s = .next (arbitrate (enterFaulted l .stuck s)))) ∧
    (∀ why : FaultReason,
      let v := fixOutcome l .lineFault s
      let w := v.line l
      let u := enterFaulted l why s
      u.line l = { w with
        guard := { w.guard with
          lineState := .faulted
          faultReason := why
          stopAfterHold := w.guard.stopAfterHold || decide (w.guard.lineState = .stopping)
          recoveryCount :=
            if w.guard.lineState = .recovering ∨
              (w.guard.lineState = .starting ∧ w.guard.startCause = .recovery) then
              satInc w.guard.recoveryCount
            else w.guard.recoveryCount
          holdTimer := some (w.guard.params.faultHold.toNat * (10 * millisecond))
          watch := .stopped
          stuckRun := none
          noticePending := true
          counters := { w.guard.counters with faults := satInc w.guard.counters.faults } }
        pins := { w.pins with tx := .rest, de := false }
        scheduler := { w.scheduler with running := false, floor := .stopped, stepInProgress := false }
        discovery := afterRun w.discovery .lineFault } ∧
      (∀ i : EntryIndex, u.node i = afterRunNode w.discovery i (v.node i)) ∧
      u.reports = enqueueAll (.line l :: runSources l w.discovery) v.reports ∧
      u.records = v.records ∧ u.slots = v.slots ∧ KeptOutside l v u)

/-! ### Reports -/

/-- R25, R98, R115, R131, R148, R151 to R155, R185, Table 12-5: each report's body after its
sequence, and what its source does as it begins. -/
def Obligations.ReportBodiesFollowTheirTables : Prop :=
  ∀ s : State,
    (∀ (r : RecordIndex) (result : TransferResult), (s.record r).result = some result →
      let x := s.record r
      let data := x.replyData.getD []
      Source.kind (.completion r) = 0x41 ∧ sourceBegins (.completion r) s = s ∧
      reportBody (.completion r) s = le16 x.tag ++
        (match x.target, x.line with
          | some h, _ => le16 h.number
          | none, .A => [0x00, 0x80]
          | none, .B => [0x01, 0x80]) ++
        [result.code, BitVec.ofNat 8 x.attempts,
          match x.nakReason with
          | none => 0
          | some .busy => 1
          | some .refused => 2,
          BitVec.ofNat 8 data.length] ++ data) ∧
    (∀ i : EntryIndex,
      let e := s.node i
      Source.kind (.node i) = 0x42 ∧
      sourceBegins (.node i) s = s.setNode i { e with noticePending := false, changeCount := 0 } ∧
      reportBody (.node i) s = le16 (Handle.number ⟨i, e.generation⟩) ++
        [e.state.code, lineCode e.line, e.address.zeroExtend 8] ++
        (match e.identity with
          | none => [0, 0, 0, 0, 0]
          | some y => 1 :: le32 y) ++ [e.changeCount, e.lastChange.code]) ∧
    (∀ k : SlotIndex,
      let x := s.slot k
      Source.kind (.data k) = 0x43 ∧
      sourceBegins (.data k) s = s.setSlot k { x with state := .sending } ∧
      reportBody (.data k) s = le16 x.handle.number ++ [lineCode x.line, x.address.zeroExtend 8,
        BitVec.ofNat 8 x.payload.length] ++ x.payload) ∧
    (∀ l : Line,
      let b := s.line l
      Source.kind (.line l) = 0x44 ∧
      sourceBegins (.line l) s = s.setLine l
        { b with guard := { b.guard with noticePending := false } } ∧
      reportBody (.line l) s =
        [lineCode l, b.guard.lineState.code, b.guard.faultReason.code, b.guard.recoveryCount]) ∧
    (∀ (l : Line) (x : DiscoveryResult), (s.line l).discovery.lastResult = some x →
      let b := s.line l
      Source.kind (.discovery l) = 0x45 ∧
      sourceBegins (.discovery l) s = s.setLine l
        { b with discovery := { b.discovery with noticePending := false } } ∧
      reportBody (.discovery l) s = [lineCode l, x.reason.code] ++ le16 x.found ++
        le16 x.reassigned ++ le16 x.clashes ++ le16 x.unresponsive) ∧
    (let n := s.link.notice
    Source.kind .link = 0x46 ∧
    sourceBegins .link s = { s with link := { s.link with notice := ⟨0, 0, 0, none, false⟩ } } ∧
    reportBody .link s = le16 n.checkFailures ++ le16 n.framingFailures ++ le16 n.inboxOverruns ++
      match n.lastDiscarded with
      | none => [0, 0]
      | some q => [1, q])
end

