-- ==== Sys2Proof/Laws/State.lean ====
section
/-! SUPPORT. Reading a field of the state after each write to it: one lemma per field and write. -/

namespace Sys2Proof.Machine

/-! ### A table's entry after a write to that table -/

theorem State.node_setNode (s : State) (i j : EntryIndex) (e : NodeEntry) :
    (s.setNode i e).node j = if j = i then e else s.node j := by
  show (s.nodes.set i.val e i.isLt)[j.val] = if j = i then e else s.nodes[j.val]
  rw [Vector.getElem_set]
  simp only [Fin.ext_iff, eq_comm]

theorem State.record_setRecord (s : State) (r q : RecordIndex) (x : TransferRecord) :
    (s.setRecord r x).record q = if q = r then x else s.record q := by
  show (s.records.set r.val x r.isLt)[q.val] = if q = r then x else s.records[q.val]
  rw [Vector.getElem_set]
  simp only [Fin.ext_iff, eq_comm]

theorem State.slot_setSlot (s : State) (k j : SlotIndex) (x : ReceiveSlot) :
    (s.setSlot k x).slot j = if j = k then x else s.slot j := by
  show (s.slots.set k.val x k.isLt)[j.val] = if j = k then x else s.slots[j.val]
  rw [Vector.getElem_set]
  simp only [Fin.ext_iff, eq_comm]

@[simp] theorem State.node_setNode_self (s : State) (i : EntryIndex) (e : NodeEntry) :
    (s.setNode i e).node i = e := by simp [State.node_setNode]

@[simp] theorem State.record_setRecord_self (s : State) (r : RecordIndex) (x : TransferRecord) :
    (s.setRecord r x).record r = x := by simp [State.record_setRecord]

@[simp] theorem State.slot_setSlot_self (s : State) (k : SlotIndex) (x : ReceiveSlot) :
    (s.setSlot k x).slot k = x := by simp [State.slot_setSlot]

theorem State.line_setLine (s : State) (l m : Line) (b : LineBlock) :
    (s.setLine l b).line m = if m = l then b else s.line m := by
  cases l <;> cases m <;> rfl

@[simp] theorem State.line_setLine_self (s : State) (l : Line) (b : LineBlock) :
    (s.setLine l b).line l = b := by cases l <;> rfl

/-! ### Writes of what stands there, and two writes to one place -/

@[simp] theorem State.setLine_line (s : State) (l : Line) : s.setLine l (s.line l) = s := by
  cases l <;> rfl

@[simp] theorem State.setLine_setLine (s : State) (l : Line) (b c : LineBlock) :
    (s.setLine l b).setLine l c = s.setLine l c := by cases l <;> rfl

@[simp] theorem State.setNode_setNode (s : State) (i : EntryIndex) (e f : NodeEntry) :
    (s.setNode i e).setNode i f = s.setNode i f := by
  simp [State.setNode]

@[simp] theorem State.setRecord_setRecord (s : State) (r : RecordIndex) (x y : TransferRecord) :
    (s.setRecord r x).setRecord r y = s.setRecord r y := by
  simp [State.setRecord]

@[simp] theorem State.setSlot_setSlot (s : State) (k : SlotIndex) (x y : ReceiveSlot) :
    (s.setSlot k x).setSlot k y = s.setSlot k y := by
  simp [State.setSlot]

/-! ### Every other field keeps its value -/

@[simp] theorem State.records_setNode (s : State) (i : EntryIndex) (e : NodeEntry) :
    (s.setNode i e).records = s.records := rfl

@[simp] theorem State.slots_setNode (s : State) (i : EntryIndex) (e : NodeEntry) :
    (s.setNode i e).slots = s.slots := rfl

@[simp] theorem State.reports_setNode (s : State) (i : EntryIndex) (e : NodeEntry) :
    (s.setNode i e).reports = s.reports := rfl

@[simp] theorem State.link_setNode (s : State) (i : EntryIndex) (e : NodeEntry) :
    (s.setNode i e).link = s.link := rfl

@[simp] theorem State.resetPin_setNode (s : State) (i : EntryIndex) (e : NodeEntry) :
    (s.setNode i e).resetPin = s.resetPin := rfl

@[simp] theorem State.pending_setNode (s : State) (i : EntryIndex) (e : NodeEntry) :
    (s.setNode i e).pending = s.pending := rfl

@[simp] theorem State.record_setNode (s : State) (i : EntryIndex) (e : NodeEntry) (q : RecordIndex) :
    (s.setNode i e).record q = s.record q := rfl

@[simp] theorem State.slot_setNode (s : State) (i : EntryIndex) (e : NodeEntry) (n : SlotIndex) :
    (s.setNode i e).slot n = s.slot n := rfl

@[simp] theorem State.line_setNode (s : State) (i : EntryIndex) (e : NodeEntry) (m : Line) :
    (s.setNode i e).line m = s.line m := by cases m <;> rfl

@[simp] theorem State.nodes_setRecord (s : State) (r : RecordIndex) (x : TransferRecord) :
    (s.setRecord r x).nodes = s.nodes := rfl

@[simp] theorem State.slots_setRecord (s : State) (r : RecordIndex) (x : TransferRecord) :
    (s.setRecord r x).slots = s.slots := rfl

@[simp] theorem State.reports_setRecord (s : State) (r : RecordIndex) (x : TransferRecord) :
    (s.setRecord r x).reports = s.reports := rfl

@[simp] theorem State.link_setRecord (s : State) (r : RecordIndex) (x : TransferRecord) :
    (s.setRecord r x).link = s.link := rfl

@[simp] theorem State.resetPin_setRecord (s : State) (r : RecordIndex) (x : TransferRecord) :
    (s.setRecord r x).resetPin = s.resetPin := rfl

@[simp] theorem State.pending_setRecord (s : State) (r : RecordIndex) (x : TransferRecord) :
    (s.setRecord r x).pending = s.pending := rfl

@[simp] theorem State.node_setRecord (s : State) (r : RecordIndex) (x : TransferRecord) (j : EntryIndex) :
    (s.setRecord r x).node j = s.node j := rfl

@[simp] theorem State.slot_setRecord (s : State) (r : RecordIndex) (x : TransferRecord) (n : SlotIndex) :
    (s.setRecord r x).slot n = s.slot n := rfl

@[simp] theorem State.line_setRecord (s : State) (r : RecordIndex) (x : TransferRecord) (m : Line) :
    (s.setRecord r x).line m = s.line m := by cases m <;> rfl

@[simp] theorem State.nodes_setSlot (s : State) (k : SlotIndex) (x : ReceiveSlot) :
    (s.setSlot k x).nodes = s.nodes := rfl

@[simp] theorem State.records_setSlot (s : State) (k : SlotIndex) (x : ReceiveSlot) :
    (s.setSlot k x).records = s.records := rfl

@[simp] theorem State.reports_setSlot (s : State) (k : SlotIndex) (x : ReceiveSlot) :
    (s.setSlot k x).reports = s.reports := rfl

@[simp] theorem State.link_setSlot (s : State) (k : SlotIndex) (x : ReceiveSlot) :
    (s.setSlot k x).link = s.link := rfl

@[simp] theorem State.resetPin_setSlot (s : State) (k : SlotIndex) (x : ReceiveSlot) :
    (s.setSlot k x).resetPin = s.resetPin := rfl

@[simp] theorem State.pending_setSlot (s : State) (k : SlotIndex) (x : ReceiveSlot) :
    (s.setSlot k x).pending = s.pending := rfl

@[simp] theorem State.node_setSlot (s : State) (k : SlotIndex) (x : ReceiveSlot) (j : EntryIndex) :
    (s.setSlot k x).node j = s.node j := rfl

@[simp] theorem State.record_setSlot (s : State) (k : SlotIndex) (x : ReceiveSlot) (q : RecordIndex) :
    (s.setSlot k x).record q = s.record q := rfl

@[simp] theorem State.line_setSlot (s : State) (k : SlotIndex) (x : ReceiveSlot) (m : Line) :
    (s.setSlot k x).line m = s.line m := by cases m <;> rfl

@[simp] theorem State.nodes_setLine (s : State) (l : Line) (b : LineBlock) :
    (s.setLine l b).nodes = s.nodes := by cases l <;> rfl

@[simp] theorem State.records_setLine (s : State) (l : Line) (b : LineBlock) :
    (s.setLine l b).records = s.records := by cases l <;> rfl

@[simp] theorem State.slots_setLine (s : State) (l : Line) (b : LineBlock) :
    (s.setLine l b).slots = s.slots := by cases l <;> rfl

@[simp] theorem State.reports_setLine (s : State) (l : Line) (b : LineBlock) :
    (s.setLine l b).reports = s.reports := by cases l <;> rfl

@[simp] theorem State.link_setLine (s : State) (l : Line) (b : LineBlock) :
    (s.setLine l b).link = s.link := by cases l <;> rfl

@[simp] theorem State.resetPin_setLine (s : State) (l : Line) (b : LineBlock) :
    (s.setLine l b).resetPin = s.resetPin := by cases l <;> rfl

@[simp] theorem State.pending_setLine (s : State) (l : Line) (b : LineBlock) :
    (s.setLine l b).pending = s.pending := by cases l <;> rfl

@[simp] theorem State.node_setLine (s : State) (l : Line) (b : LineBlock) (j : EntryIndex) :
    (s.setLine l b).node j = s.node j := by cases l <;> rfl

@[simp] theorem State.record_setLine (s : State) (l : Line) (b : LineBlock) (q : RecordIndex) :
    (s.setLine l b).record q = s.record q := by cases l <;> rfl

@[simp] theorem State.slot_setLine (s : State) (l : Line) (b : LineBlock) (n : SlotIndex) :
    (s.setLine l b).slot n = s.slot n := by cases l <;> rfl

@[simp] theorem State.nodes_updLink (s : State) (f : HostLink → HostLink) :
    (s.updLink f).nodes = s.nodes := rfl

@[simp] theorem State.records_updLink (s : State) (f : HostLink → HostLink) :
    (s.updLink f).records = s.records := rfl

@[simp] theorem State.slots_updLink (s : State) (f : HostLink → HostLink) :
    (s.updLink f).slots = s.slots := rfl

@[simp] theorem State.reports_updLink (s : State) (f : HostLink → HostLink) :
    (s.updLink f).reports = s.reports := rfl

@[simp] theorem State.resetPin_updLink (s : State) (f : HostLink → HostLink) :
    (s.updLink f).resetPin = s.resetPin := rfl

@[simp] theorem State.pending_updLink (s : State) (f : HostLink → HostLink) :
    (s.updLink f).pending = s.pending := rfl

@[simp] theorem State.node_updLink (s : State) (f : HostLink → HostLink) (j : EntryIndex) :
    (s.updLink f).node j = s.node j := rfl

@[simp] theorem State.record_updLink (s : State) (f : HostLink → HostLink) (q : RecordIndex) :
    (s.updLink f).record q = s.record q := rfl

@[simp] theorem State.slot_updLink (s : State) (f : HostLink → HostLink) (n : SlotIndex) :
    (s.updLink f).slot n = s.slot n := rfl

@[simp] theorem State.line_updLink (s : State) (f : HostLink → HostLink) (m : Line) :
    (s.updLink f).line m = s.line m := by cases m <;> rfl

@[simp] theorem State.link_updLink (s : State) (f : HostLink → HostLink) :
    (s.updLink f).link = f s.link := rfl

/-! ### The changes of one part of a line are changes of the line -/

theorem State.updLine_eq (s : State) (l : Line) (f : LineBlock → LineBlock) :
    s.updLine l f = s.setLine l (f (s.line l)) := rfl

theorem State.updGuard_eq (s : State) (l : Line) (f : LineGuard → LineGuard) :
    s.updGuard l f = s.setLine l { s.line l with guard := f (s.line l).guard } := rfl

theorem State.updScheduler_eq (s : State) (l : Line) (f : Scheduler → Scheduler) :
    s.updScheduler l f = s.setLine l { s.line l with scheduler := f (s.line l).scheduler } := rfl

theorem State.updDiscovery_eq (s : State) (l : Line) (f : Discovery → Discovery) :
    s.updDiscovery l f = s.setLine l { s.line l with discovery := f (s.line l).discovery } := rfl

theorem State.updReceiver_eq (s : State) (l : Line) (f : Receiver → Receiver) :
    s.updReceiver l f = s.setLine l { s.line l with receiver := f (s.line l).receiver } := rfl

theorem State.updCounters_eq (s : State) (l : Line) (f : LineCounters → LineCounters) :
    s.updCounters l f = s.setLine l { s.line l with
      guard := { (s.line l).guard with counters := f (s.line l).guard.counters } } := rfl

theorem State.setEngine_eq (s : State) (l : Line) (e : Engine) :
    s.setEngine l e = s.setLine l { s.line l with engine := e } := rfl

/-! ### Two states with the same tables -/

theorem State.nodes_ext {s t : State} (h : ∀ i, s.node i = t.node i) : s.nodes = t.nodes := by
  apply Vector.ext
  intro i hi
  exact h ⟨i, hi⟩

theorem State.records_ext {s t : State} (h : ∀ r, s.record r = t.record r) :
    s.records = t.records := by
  apply Vector.ext
  intro i hi
  exact h ⟨i, hi⟩

theorem State.slots_ext {s t : State} (h : ∀ k, s.slot k = t.slot k) : s.slots = t.slots := by
  apply Vector.ext
  intro i hi
  exact h ⟨i, hi⟩

end Sys2Proof.Machine
end

