-- ==== Sys2Proof/Laws/Ops.lean ====
section
/-! SUPPORT. What each shared operation does, as one equation or one statement for each: the operation
is then cited, not unfolded. -/

namespace Sys2Proof.Machine

/-! ### Sources that enter the report queue -/

@[simp] theorem enqueueAll_nil (q : List Source) : enqueueAll [] q = q := rfl

theorem enqueueAll_append (xs ys q : List Source) :
    enqueueAll (xs ++ ys) q = enqueueAll ys (enqueueAll xs q) := List.foldl_append

theorem enqueueAll_cons (x : Source) (xs q : List Source) :
    enqueueAll (x :: xs) q = enqueueAll xs (enqueueAll [x] q) := rfl

theorem enqueue_eq (src : Source) (s : State) :
    enqueue src s = { s with reports := enqueueAll [src] s.reports } := by
  simp only [enqueue, enqueueAll, List.foldl]
  split <;> rfl

/-- The report queue after some sources have entered it. -/
theorem mem_enqueueAll (xs q : List Source) (y : Source) :
    y ∈ enqueueAll xs q ↔ y ∈ q ∨ y ∈ xs := by
  induction xs generalizing q with
  | nil => simp
  | cons x xs ih =>
    rw [enqueueAll_cons, ih]
    simp only [enqueueAll, List.foldl, List.mem_cons]
    split
    · rename_i h
      constructor
      · rintro (h1 | h1) <;> simp [h1]
      · rintro (h1 | rfl | h1)
        · exact .inl h1
        · exact .inl h
        · exact .inr h1
    · simp only [List.mem_append, List.mem_singleton, or_assoc]

theorem enqueueAll_nodup (xs q : List Source) (h : q.Nodup) : (enqueueAll xs q).Nodup := by
  induction xs generalizing q with
  | nil => exact h
  | cons x xs ih =>
    rw [enqueueAll_cons]
    apply ih
    simp only [enqueueAll, List.foldl]
    split
    · exact h
    · rename_i hx
      rw [List.nodup_append]
      refine ⟨h, by simp, ?_⟩
      rintro a ha b hb rfl
      exact hx (List.mem_singleton.1 hb ▸ ha)

/-! ### Changing the report queue changes nothing else -/

/-- The state with its report queue replaced. -/
def State.withReports (s : State) (q : List Source) : State := { s with reports := q }

@[simp] theorem State.node_withReports (s : State) (q : List Source) (i : EntryIndex) :
    (s.withReports q).node i = s.node i := rfl

@[simp] theorem State.record_withReports (s : State) (q : List Source) (r : RecordIndex) :
    (s.withReports q).record r = s.record r := rfl

@[simp] theorem State.slot_withReports (s : State) (q : List Source) (k : SlotIndex) :
    (s.withReports q).slot k = s.slot k := rfl

@[simp] theorem State.line_withReports (s : State) (q : List Source) (l : Line) :
    (s.withReports q).line l = s.line l := by cases l <;> rfl

@[simp] theorem State.nodes_withReports (s : State) (q : List Source) :
    (s.withReports q).nodes = s.nodes := rfl

@[simp] theorem State.records_withReports (s : State) (q : List Source) :
    (s.withReports q).records = s.records := rfl

@[simp] theorem State.slots_withReports (s : State) (q : List Source) :
    (s.withReports q).slots = s.slots := rfl

@[simp] theorem State.reports_withReports (s : State) (q : List Source) :
    (s.withReports q).reports = q := rfl

@[simp] theorem State.link_withReports (s : State) (q : List Source) :
    (s.withReports q).link = s.link := rfl

@[simp] theorem State.resetPin_withReports (s : State) (q : List Source) :
    (s.withReports q).resetPin = s.resetPin := rfl

@[simp] theorem State.pending_withReports (s : State) (q : List Source) :
    (s.withReports q).pending = s.pending := rfl

@[simp] theorem State.withReports_withReports (s : State) (p q : List Source) :
    (s.withReports p).withReports q = s.withReports q := rfl

theorem State.setNode_withReports (s : State) (q : List Source) (i : EntryIndex) (e : NodeEntry) :
    (s.withReports q).setNode i e = (s.setNode i e).withReports q := rfl

theorem State.setRecord_withReports (s : State) (q : List Source) (r : RecordIndex)
    (x : TransferRecord) : (s.withReports q).setRecord r x = (s.setRecord r x).withReports q := rfl

theorem State.setSlot_withReports (s : State) (q : List Source) (k : SlotIndex) (x : ReceiveSlot) :
    (s.withReports q).setSlot k x = (s.setSlot k x).withReports q := rfl

theorem State.setLine_withReports (s : State) (q : List Source) (l : Line) (b : LineBlock) :
    (s.withReports q).setLine l b = (s.setLine l b).withReports q := by cases l <;> rfl

theorem enqueue_withReports (src : Source) (s : State) :
    enqueue src s = s.withReports (enqueueAll [src] s.reports) := enqueue_eq src s

/-! ### Notices -/

theorem raiseNodeNotice_eq (i : EntryIndex) (s : State) :
    raiseNodeNotice i s =
      (s.setNode i (noted (s.node i))).withReports (enqueueAll [.node i] s.reports) :=
  enqueue_eq _ _

theorem raiseLineNotice_eq (l : Line) (s : State) :
    raiseLineNotice l s = (s.setLine l { s.line l with
      guard := { (s.line l).guard with noticePending := true } }).withReports
        (enqueueAll [.line l] s.reports) := by
  rw [raiseLineNotice, enqueue_withReports, State.updGuard_eq]; simp

theorem raiseDiscoveryNotice_eq (l : Line) (s : State) :
    raiseDiscoveryNotice l s = (s.setLine l { s.line l with
      discovery := { (s.line l).discovery with noticePending := true } }).withReports
        (enqueueAll [.discovery l] s.reports) := by
  rw [raiseDiscoveryNotice, enqueue_withReports, State.updDiscovery_eq]; simp

theorem raiseLinkNotice_eq (f : LinkNotice → LinkNotice) (s : State) :
    raiseLinkNotice f s = (s.updLink fun k => { k with
      notice := { f k.notice with pending := true } }).withReports
        (enqueueAll [.link] s.reports) := enqueue_eq _ _

/-! ### Records -/

theorem completeRecord_eq (r : RecordIndex) (result : TransferResult) (s : State) :
    completeRecord r result s = (s.setRecord r (completedWith result (s.record r))).withReports
      (enqueueAll [.completion r] s.reports) := enqueue_eq _ _

/-- Several records complete, one after another. -/
theorem completeRecords_spec (rs : List RecordIndex) (result : TransferResult) (s : State) :
    let u := rs.foldl (fun t r => completeRecord r result t) s
    (∀ q, u.record q = if q ∈ rs then completedWith result (s.record q) else s.record q) ∧
      u.reports = enqueueAll (rs.map Source.completion) s.reports ∧ u.nodes = s.nodes ∧
      u.slots = s.slots ∧ (∀ m, u.line m = s.line m) ∧ u.link = s.link ∧
      u.resetPin = s.resetPin ∧ u.pending = s.pending := by
  induction rs generalizing s with
  | nil => simp
  | cons r rs ih =>
    have h := ih (completeRecord r result s)
    simp only [List.foldl_cons]
    rw [completeRecord_eq] at h ⊢
    obtain ⟨h1, h2, h3, h4, h5, h6, h7, h8⟩ := h
    refine ⟨fun q => ?_, ?_, by simp [h3], by simp [h4], fun m => by simp [h5], by simp [h6],
      by simp [h7], by simp [h8]⟩
    · rw [h1, State.record_withReports, State.record_setRecord]
      by_cases hq : q = r
      · subst hq; simp [completedWith]
      · simp [hq]
    · rw [h2, List.map_cons, enqueueAll_cons (.completion r)]; rfl

/-- What completing the chosen records of a line's queues does. -/
theorem completeQueued_spec (l : Line) (p : TransferRecord → Bool) (result : TransferResult)
    (s : State) :
    let b := s.line l
    let chosen := b.queued.filter fun r => p (s.record r)
    let u := (completeQueued l p result s).1
    (completeQueued l p result s).2 = chosen.length ∧
      (∀ q, u.record q = if q ∈ chosen then completedWith result (s.record q) else s.record q) ∧
      u.line l = { b with
        urgent := b.urgent.filter fun r => !p (s.record r)
        normal := b.normal.filter fun r => !p (s.record r) } ∧
      u.reports = enqueueAll (chosen.map Source.completion) s.reports ∧ u.nodes = s.nodes ∧
      u.slots = s.slots ∧ KeptOutside l s u := by
  intro b chosen u
  have h := completeRecords_spec chosen result (s.updLine l fun b => { b with
    urgent := b.urgent.filter fun r => !p (s.record r)
    normal := b.normal.filter fun r => !p (s.record r) })
  rw [State.updLine_eq] at h
  obtain ⟨h1, h2, h3, h4, h5, h6, h7, h8⟩ := h
  refine ⟨rfl, fun q => ?_, ?_, ?_, ?_, ?_, ?_, ?_, ?_, ?_⟩
  · exact (h1 q).trans (by simp)
  · exact (h5 l).trans (State.line_setLine_self ..)
  · exact h2.trans (by simp)
  · exact h3.trans (by simp)
  · exact h4.trans (by simp)
  · exact (h5 (otherLine l)).trans (by cases l <;> rfl)
  · exact h6.trans (by simp)
  · exact h7.trans (by simp)
  · exact h8.trans (by simp)

/-! ### Exchanges -/

theorem beginExchange_eq (l : Line) (x : Exchange) (s : State) :
    beginExchange l x s = s.setLine l ((s.line l).sends x) := rfl

theorem LineBlock.dominantRun_eq (b : LineBlock) : b.dominantRun = b.runOnRelease := by
  rcases b with ⟨g, _, _, _, _, p, _, _⟩
  rcases p with ⟨_, _, rx⟩
  unfold LineBlock.dominantRun LineBlock.runOnRelease
  cases h : g.lineState <;> cases rx <;> simp [LineState.watched, stuckTime, charTimes]

theorem releaseDriver_eq (l : Line) (s : State) :
    releaseDriver l s = s.setLine l { s.line l with
      pins := if (s.line l).pins.de = true then { (s.line l).pins with tx := .rest, de := false }
        else (s.line l).pins
      guard := { (s.line l).guard with
        stuckRun := if (s.line l).pins.de = true then (s.line l).runOnRelease
          else (s.line l).guard.stuckRun } } := by
  rw [releaseDriver, State.updLine_eq]
  by_cases h : (s.line l).pins.de = true
  · simp [h, LineBlock.dominantRun_eq]
  · simp only [h, Bool.false_eq_true, if_false]

/-- The wire side of an outcome, as one write of the line. -/
theorem leaveWire_eq (l : Line) (x : Exchange) (o : ExchangeOutcome) (s : State) :
    let b := s.line l
    let g := b.guard
    leaveWire l x o s = s.setLine l { b with
      engine := engineAfter g.params x o
      pins := if b.pins.de = true then { b.pins with tx := .rest, de := false } else b.pins
      guard := { g with
        stuckRun := if b.pins.de = true then b.runOnRelease else g.stuckRun
        contentionRun := contentionRunAfter o g.contentionRun
        counters := countOutcome o g.counters } } := by
  intro b g
  rw [leaveWire, releaseDriver_eq, State.updLine_eq]
  simp [b, g]

/-- The end of an exchange: the engine IDLE, and the target gone where its removal was waiting. -/
theorem finishExchange_spec (l : Line) (c : Carried) (s : State) :
    let left := c.target.filter fun h => (s.node h.index).removalPending
    let u := finishExchange l c s
    u.line l = { s.line l with engine := .idle } ∧
      (∀ i : EntryIndex, u.node i = if left.any (fun h => h.index == i) then
        noted { s.node i with state := .free, removalPending := false, lastChange := .removed }
        else s.node i) ∧
      u.reports = enqueueAll (left.toList.map fun h => Source.node h.index) s.reports ∧
      u.records = s.records ∧ u.slots = s.slots ∧ KeptOutside l s u := by
  intro left u
  have ho : otherLine l ≠ l := by cases l <;> simp [otherLine]
  cases ht : c.target with
  | none =>
    have hu : u = s.setEngine l .idle := by simp [u, finishExchange, finishTarget, ht]
    have hl : left = none := by simp [left, ht]
    simp only [hl, hu]
    rw [State.setEngine_eq]
    simp [KeptOutside, State.line_setLine, ho]
  | some h =>
    by_cases hr : (s.node h.index).removalPending = true
    · have hl : left = some h := by simp [left, ht, hr]
      have hn : (s.setEngine l .idle).node h.index = s.node h.index := by
        simp [State.setEngine_eq]
      have hu : u = raiseNodeNotice h.index ((s.setEngine l .idle).setNode h.index
          { s.node h.index with state := .free, removalPending := false, lastChange := .removed }) := by
        simp [u, finishExchange, finishTarget, ht, completeRemoval, hn, hr]
      rw [raiseNodeNotice_eq, State.setEngine_eq] at hu
      simp only [hl, hu]
      refine ⟨by simp, fun i => ?_, by simp, by simp, by simp, by simp [State.line_setLine, ho],
        by simp, by simp, by simp⟩
      by_cases hi : i = h.index
      · subst hi; simp
      · have : (h.index == i) = false := by simp [Ne.symm hi]
        simp [State.node_setNode, hi, this]
    · have hu : u = s.setEngine l .idle := by
        simp [u, finishExchange, finishTarget, ht, completeRemoval, State.setEngine_eq, hr]
      have hl : left = none := by simp [left, ht, hr]
      simp only [hl, hu]
      rw [State.setEngine_eq]
      simp [KeptOutside, State.line_setLine, ho]

/-! ### Runs -/

theorem releaseClaim_spec (l : Line) (s : State) :
    let d := (s.line l).discovery
    let u := releaseClaim l s
    (∀ i, u.node i = if d.assignment.any (fun a => a.claimed && a.entry == i) then
      { s.node i with assignHold := false } else s.node i) ∧
      (∀ m, u.line m = s.line m) ∧ u.records = s.records ∧ u.slots = s.slots ∧
      u.reports = s.reports ∧ u.link = s.link ∧ u.resetPin = s.resetPin ∧
      u.pending = s.pending := by
  intro d u
  cases ha : d.assignment with
  | none =>
    have hu : u = s := by
      have ha' : (s.line l).discovery.assignment = none := ha
      simp [u, releaseClaim, ha']
    simp [hu]
  | some a =>
    have ha' : (s.line l).discovery.assignment = some a := ha
    by_cases hc : a.claimed = true
    · have hu : u = s.setNode a.entry { s.node a.entry with assignHold := false } := by
        simp [u, releaseClaim, ha', hc]
      rw [hu]
      refine ⟨fun i => ?_, by simp, by simp, by simp, by simp, by simp, by simp, by simp⟩
      by_cases hi : i = a.entry
      · subst hi; simp [hc]
      · have : (a.entry == i) = false := by simp [Ne.symm hi]
        simp [State.node_setNode, hi, this]
    · have hu : u = s := by simp [u, releaseClaim, ha', hc]
      simp [hu, hc]

theorem endRunPending_inactive (l : Line) (r : StopReason) (s : State)
    (h : (s.line l).discovery.active = false) : endRunPending l r s = s := by
  simp [endRunPending, endRun, h]

/-- The end of a run (R112), by the reason it is given. -/
theorem endRun_spec (l : Line) (r : StopReason) (s : State) :
    let b := s.line l
    let d := b.discovery
    let u := endRun l r s
    u.line l = { b with
        discovery := if d.active = true then { d.ended r with noticePending := true } else d
        scheduler := if d.active = true then { b.scheduler with stepInProgress := false }
          else b.scheduler } ∧
      (∀ i, u.node i = afterRunNode d i (s.node i)) ∧
      u.reports = enqueueAll (runSources l d) s.reports ∧
      u.records = s.records ∧ u.slots = s.slots ∧ KeptOutside l s u := by
  intro b d u
  by_cases ha : d.active = true
  · have hrc := releaseClaim_spec l s
    obtain ⟨h1, h2, h3, h4, h5, h6, h7, h8⟩ := hrc
    have hu : u = raiseDiscoveryNotice l (endStep l
        ((releaseClaim l s).updDiscovery l fun d => d.ended r)) := by
      have : (s.line l).discovery.active = true := ha
      simp [u, endRun, this]
    have hl : (releaseClaim l s).line l = b := h2 l
    rw [raiseDiscoveryNotice_eq, endStep, State.updScheduler_eq, State.updDiscovery_eq] at hu
    simp only [State.line_setLine_self, State.setLine_setLine, State.reports_setLine, hl, h5] at hu
    refine ⟨?_, fun i => ?_, ?_, ?_, ?_, ?_, ?_, ?_, ?_⟩
    · rw [hu]; simp [Discovery.ended, ha, d, b]
    · rw [hu]; simp only [State.node_withReports, State.node_setLine, h1]
      simp [afterRunNode, ha, d, b]
    · rw [hu]; simp [runSources, ha, d, b]
    · rw [hu]; simp [h3]
    · rw [hu]; simp [h4]
    · rw [hu]; simp only [State.line_withReports, State.line_setLine]
      rw [if_neg (by cases l <;> simp [otherLine]), h2]
    · rw [hu]; simp [h6]
    · rw [hu]; simp [h7]
    · rw [hu]; simp [h8]
  · have ha' : (s.line l).discovery.active = false := by simpa [d, b] using ha
    have hu : u = s := by simp [u, endRun, ha']
    rw [hu]
    refine ⟨?_, fun i => ?_, ?_, rfl, rfl, rfl, rfl, rfl, rfl⟩
    · simp only [ha', Bool.false_eq_true, if_false, d, b]
    · simp [afterRunNode, ha', d, b]
    · simp [runSources, ha', d, b]

/-- The end of a run whose stop may be pending (R112 to R114). -/
theorem endRunPending_spec (l : Line) (r : StopReason) (s : State) :
    let b := s.line l
    let d := b.discovery
    let u := endRunPending l r s
    u.line l = { b with
        discovery := afterRun d r
        scheduler := if d.active = true then { b.scheduler with stepInProgress := false }
          else b.scheduler } ∧
      (∀ i, u.node i = afterRunNode d i (s.node i)) ∧
      u.reports = enqueueAll (runSources l d) s.reports ∧
      u.records = s.records ∧ u.slots = s.slots ∧ KeptOutside l s u := by
  intro b d u
  have h := endRun_spec l (d.stopPending.reasonOr r) s
  refine ⟨h.1.trans ?_, h.2⟩
  by_cases ha : (s.line l).discovery.active = true
  · cases hp : (s.line l).discovery.stopPending <;>
      simp [afterRun, ha, d, b, hp, Discovery.ended, StopPending.reasonOr]
  · simp [afterRun, ha, d, b]

end Sys2Proof.Machine
end

