-- ==== Sys2Proof/Laws/Outcomes.lean ====
section
/-! SUPPORT. What fixing an outcome does, owner by owner: one equation or statement for each operation
that an outcome goes through. -/

namespace Sys2Proof.Machine

theorem otherLine_ne (l : Line) : otherLine l ≠ l := by cases l <;> simp [otherLine]

/-! ### Fixing an outcome -/

theorem fixOutcome_none {l : Line} {o : ExchangeOutcome} {s : State}
    (h : (s.line l).engine.unfixed = none) : fixOutcome l o s = s := by
  simp [fixOutcome, h]

theorem fixOutcome_some {l : Line} {o : ExchangeOutcome} {s : State} {x : Exchange}
    (h : (s.line l).engine.unfixed = some x) :
    fixOutcome l o s =
      tellOwners l x o ((s.line l).guard.lineState == .stopping) (leaveWire l x o s) := by
  simp [fixOutcome, h]

/-- The line after the wire side of an outcome. -/
def LineBlock.left (b : LineBlock) (x : Exchange) (o : ExchangeOutcome) : LineBlock :=
  { b with
    engine := engineAfter b.guard.params x o
    pins := if b.pins.de = true then { b.pins with tx := .rest, de := false } else b.pins
    guard := { b.guard with
      stuckRun := if b.pins.de = true then b.runOnRelease else b.guard.stuckRun
      contentionRun := contentionRunAfter o b.guard.contentionRun
      counters := countOutcome o b.guard.counters } }

theorem leaveWire_left (l : Line) (x : Exchange) (o : ExchangeOutcome) (s : State) :
    leaveWire l x o s = s.setLine l ((s.line l).left x o) := leaveWire_eq l x o s

/-- What an outcome does to the entries: the effect at index `i`, its notice once raised. -/
def EntryEffect.told (r : EntryEffect) : NodeEntry := if r.notice then noted r.entry else r.entry

/-- The source that an outcome's notice enqueues. -/
def EntryEffect.sources (r : EntryEffect) (i : EntryIndex) : List Source :=
  if r.notice then [.node i] else []

theorem tellNode_eq (i : EntryIndex) (f : MasterFrame) (o : ExchangeOutcome) (l : Line) (s : State) :
    let r := entryOutcome f o (s.line l).guard.params.missLimit.toNat (s.node i)
    tellNode i f o l s =
      ((s.setNode i r.told).withReports (enqueueAll (r.sources i) s.reports), r.lost) := by
  intro r
  unfold tellNode
  by_cases h : r.notice = true
  · have h' : (entryOutcome f o (s.line l).guard.params.missLimit.toNat (s.node i)).notice = true := h
    simp [h', EntryEffect.told, EntryEffect.sources, raiseNodeNotice_eq, r]
  · have h' : (entryOutcome f o (s.line l).guard.params.missLimit.toNat (s.node i)).notice = false := by
      simpa using h
    simp [h', EntryEffect.told, EntryEffect.sources, r]
    rfl

/-- Completing the records aimed at a node that an outcome has made LOST. -/
theorem loseTransfers_spec (l : Line) (i : EntryIndex) (lost : Bool) (s : State) :
    let b := s.line l
    let hit (q : RecordIndex) : Bool := lost && (s.record q).aimedAt i
    let u := loseTransfers l i lost s
    (∀ q, u.record q = if q ∈ b.queued.filter hit then completedWith .nodeLost (s.record q)
      else s.record q) ∧
      u.line l = { b with
        urgent := b.urgent.filter fun q => !hit q
        normal := b.normal.filter fun q => !hit q } ∧
      u.reports = enqueueAll ((b.queued.filter hit).map Source.completion) s.reports ∧
      u.nodes = s.nodes ∧ u.slots = s.slots ∧ KeptOutside l s u := by
  intro b hit u
  cases lost with
  | false =>
    have hu : u = s := rfl
    have hh : hit = fun _ => false := by funext q; simp [hit]
    rw [hu, hh]
    have ht : ∀ q : List RecordIndex, q.filter (fun _ => !false) = q := fun q => by
      rw [List.filter_eq_self]; simp
    have hf : ∀ q : List RecordIndex, q.filter (fun _ => false) = [] := fun q => by
      rw [List.filter_eq_nil_iff]; simp
    refine ⟨fun q => by rw [hf]; simp, by rw [ht, ht], by rw [hf]; rfl, rfl, rfl, rfl, rfl, rfl, rfl⟩
  | true =>
    have hh : hit = fun q => (s.record q).aimedAt i := by funext q; simp [hit]
    have h := completeQueued_spec l (fun x => x.aimedAt i) .nodeLost s
    rw [hh]
    exact h.2

/-! ### A record's disposition -/

/-- A disposition carried out: the record completes, or goes back to its queue (Table 2-3). -/
theorem tellRecord_eq (r : RecordIndex) (o : ExchangeOutcome) (gone lost stopping : Bool) (s : State) :
    let x := (s.record r).attempted o
    tellRecord r o gone lost stopping s =
      match (x.dispose o).override gone lost stopping with
      | .complete result data nak =>
        (s.setRecord r (completedWith result { x with replyData := data, nakReason := nak })).withReports
          (enqueueAll [.completion r] s.reports)
      | .toTail => queueTail r (s.setRecord r { x with state := .queued })
      | .toHead => queueHead r (s.setRecord r { x with state := .queued }) := by
  intro x
  unfold tellRecord
  split
  · rename_i h; simp only [x, h]; rw [completeRecord_eq]; simp
  · rename_i h; simp only [x, h]
  · rename_i h; simp only [x, h]

end Sys2Proof.Machine
end

