-- ==== Sys2Proof/Laws/Events.lean ====
section
/-! SUPPORT. What the events of a line's receiver, the end of a frame and a byte on HRX can do: one
equation for each case of each operation. -/

namespace Sys2Proof.Machine

/-! ### Commands in and out of reset (R187) -/

theorem outOfReset_high (f : State → State) {s : State} (h : s.resetPin = .high) :
    outOfReset f s = .next (f s) := by
  simp [outOfReset, h]

theorem outOfReset_low (f : State → State) {s : State} {b : Bool} (h : s.resetPin = .low b) :
    outOfReset f s = .next s := by
  simp [outOfReset, h]

theorem command_high (f : State → State) {s : State} (h : s.resetPin = .high) :
    command f s = .next (arbitrate (f s)) := outOfReset_high _ h

theorem command_low (f : State → State) {s : State} {b : Bool} (h : s.resetPin = .low b) :
    command f s = .next s := outOfReset_low _ h

/-! ### The line receiver (Table 8-3) -/

theorem ReceiverState.inCharacter_iff (r : ReceiverState) :
    r.inCharacter = true ↔ r = .bits ∨ r = .stop := by cases r <;> simp [inCharacter]

theorem verifyStart_start {l : Line} {s : State} (noisy : Bool)
    (h : (s.line l).receiver.state = .start) :
    verifyStart l noisy s = s.setLine l { s.line l with
      receiver := ⟨.bits, noisy⟩, engine := (s.line l).engine.startSeen } := by
  simp [verifyStart, State.updLine_eq, LineBlock.fromStart, h]

theorem rejectStart_start {l : Line} {s : State} (h : (s.line l).receiver.state = .start) :
    rejectStart l s = s.setLine l { s.line l with
      receiver := ⟨armedState (s.line l).pins.rx, false⟩
      guard := { (s.line l).guard with counters := { (s.line l).guard.counters with
        falseStarts := satInc (s.line l).guard.counters.falseStarts } } } := by
  simp [rejectStart, State.updLine_eq, LineBlock.fromStart, h]

theorem LineBlock.fromStart_ne {b : LineBlock} (f : LineBlock → LineBlock)
    (h : b.receiver.state ≠ .start) : b.fromStart f = b := by
  unfold fromStart; split <;> simp_all

theorem verifyStart_ne {l : Line} {s : State} (noisy : Bool)
    (h : (s.line l).receiver.state ≠ .start) : verifyStart l noisy s = s := by
  simp [verifyStart, State.updLine_eq, LineBlock.fromStart_ne _ h]

theorem rejectStart_ne {l : Line} {s : State} (h : (s.line l).receiver.state ≠ .start) :
    rejectStart l s = s := by
  simp [rejectStart, State.updLine_eq, LineBlock.fromStart_ne _ h]

theorem receiveCharacter_inCharacter {l : Line} {s : State} (bits : Samples 10)
    (h : (s.line l).receiver.state.inCharacter = true) :
    receiveCharacter l bits s =
      let c := decideCharacter (s.line l).receiver.startNoisy bits
      engineCharacter l c (countCharacter l c s) := by
  simp [receiveCharacter, h]

theorem receiveCharacter_search {l : Line} {s : State} (bits : Samples 10)
    (h : (s.line l).receiver.state.inCharacter = false) : receiveCharacter l bits s = s := by
  simp [receiveCharacter, h]

/-! ### The end of a master frame (R75, R143) -/

theorem sendFrame_matched {l : Line} {s : State} {x : Exchange} {n : Nat}
    (h : (s.line l).engine = .sending x n false) (hn : x.frame.characters.length ≤ n) :
    sendFrame l s = endFrameSent l x s := by
  simp [sendFrame, h, hn]

theorem sendFrame_lastEcho {l : Line} {s : State} {x : Exchange} {n : Nat}
    (h : (s.line l).engine = .sending x n false) (hn : x.frame.characters.length = n + 1) :
    sendFrame l s = releaseDriver l s := by
  simp [sendFrame, h, hn]

theorem sendFrame_early {l : Line} {s : State} {x : Exchange} {n : Nat}
    (h : (s.line l).engine = .sending x n false) (hn : n + 1 < x.frame.characters.length) :
    sendFrame l s = s := by
  simp [sendFrame, h, show ¬ x.frame.characters.length ≤ n by omega,
    show x.frame.characters.length ≠ n + 1 by omega]

theorem sendFrame_differs {l : Line} {s : State} {x : Exchange} {n : Nat}
    (h : (s.line l).engine = .sending x n true) : sendFrame l s = s := by
  simp [sendFrame, h]

theorem endFrameSent_sendAll {x : Exchange} (l : Line) (s : State)
    (h : x.frame.isSendAll = true) : endFrameSent l x s = fixOutcome l .sent s := by
  simp [endFrameSent, h]

theorem endFrameSent_window {x : Exchange} (l : Line) (s : State)
    (h : x.frame.isSendAll = false) :
    endFrameSent l x s = pollTransmitted x.carried (openWindow l x s) := by
  simp [endFrameSent, h]

/-! ### The echo check (R142, R143) -/

theorem echoCharacter_match {l : Line} {s : State} {x : Exchange} {n : Nat}
    {sent : Byte × Bool} {c : ReceivedCharacter} (hs : x.frame.characters[n]? = some sent)
    (hc : echoMatches sent c = true) :
    echoCharacter l x n c s =
      if (s.line l).pins.de = true then s.setEngine l (.sending x (n + 1) false)
      else sendFrame l (s.setEngine l (.sending x (n + 1) false)) := by
  simp [echoCharacter, hs, hc]

theorem echoCharacter_differ {l : Line} {s : State} {x : Exchange} {n : Nat}
    {sent : Byte × Bool} {c : ReceivedCharacter} (hs : x.frame.characters[n]? = some sent)
    (hc : echoMatches sent c = false) :
    echoCharacter l x n c s =
      if (s.line l).pins.de = true then s.setEngine l (.sending x n true) else fixContention l s := by
  simp [echoCharacter, hs, hc]

theorem echoCharacter_done {l : Line} {s : State} {x : Exchange} {n : Nat} {c : ReceivedCharacter}
    (hn : x.frame.characters.length ≤ n) : echoCharacter l x n c s = s := by
  simp [echoCharacter, List.getElem?_eq_none hn]

/-! ### A byte on HRX (R157) -/

theorem receiveByte_stopLow {s : State} (b : Samples 10) (h : s.link.receiver = .stopLow) :
    receiveByte b s = s := by
  simp [receiveByte, h]

theorem receiveByte_decides {s : State} (b : Samples 10) (h : s.link.receiver ≠ .stopLow) :
    receiveByte b s = decideByte b s := by
  unfold receiveByte; split <;> simp_all

theorem decideByte_startHigh {s : State} {b : Samples 10} (h : b.startLow = false) :
    decideByte b s = searchStart s := by
  simp [decideByte, h]

theorem decideByte_received {s : State} {b : Samples 10} (h : b.startLow = true)
    (hs : b.stopHigh = true) : decideByte b s = takeByte b.byteData (searchStart s) := by
  simp [decideByte, h, hs]

theorem decideByte_stopLow {s : State} {b : Samples 10} (h : b.startLow = true)
    (hs : b.stopHigh = false) : decideByte b s = watchStop s := by
  simp [decideByte, h, hs]

theorem Samples.value_clean {n : Nat} (v : BitVec n) : (Samples.clean v).value = v := by
  simp [Samples.value, Samples.clean]

/-- A byte sampled without noise has its start low, its stop high and its data (R156). -/
theorem Samples.ofByte_decided (b : Byte) :
    (Samples.ofByte b).startLow = true ∧ (Samples.ofByte b).stopHigh = true ∧
      (Samples.ofByte b).byteData = b := by
  simp only [Samples.startLow, Samples.stopHigh, Samples.byteData, Samples.ofByte,
    Samples.value_clean, byteWord]
  revert b
  decide +kernel

end Sys2Proof.Machine
end

