-- ==== Sys2Proof/Laws/Requests.lean ====
section
/-! SUPPORT. A request that is taken as it arrives, and the lookups that requests make. -/

namespace Sys2Proof.Machine

/-- A request that the part is ready for: its answer's state, then its reply in the inbox (R161 to
R163). -/
theorem command_offer_ready (kind seq : Byte) (body : List Byte) (take : List Byte → State → Answer)
    (s : State) (h : Ready s) (hk : isRequestKind kind = true) :
    command (offer kind seq body take) s =
      .next (answered kind seq body (take body s).2 (take body s).1) := by
  obtain ⟨h1, h2, h3⟩ := h
  have ha : answerKind kind = kind + 0x80 := by simp [answerKind, hk, replyKind]
  simp only [command, outOfReset, h1, offer, Config.inboxEntries, h3, h2, if_true]
  simp [joinInbox, answered, ha, State.updLink]

/-- A request that is refused (R168). -/
theorem command_offer_refused (kind seq : Byte) (body : List Byte) (take : List Byte → State → Answer)
    (s : State) (st : Status) (h : Ready s) (hk : isRequestKind kind = true)
    (ht : take body s = refuse st s) :
    command (offer kind seq body take) s = .next (answered kind seq body [st.code] s) := by
  have h1 := command_offer_ready kind seq body take s h hk
  rw [h1, ht]
  rfl

/-- A request that is accepted (R168). -/
theorem command_offer_accepted (kind seq : Byte) (body reply : List Byte)
    (take : List Byte → State → Answer) (s t : State) (h : Ready s) (hk : isRequestKind kind = true)
    (ht : take body s = accept t reply) :
    command (offer kind seq body take) s = .next (answered kind seq body (0 :: reply) t) := by
  have h1 := command_offer_ready kind seq body take s h hk
  rw [h1, ht]
  rfl

/-! ### The first index with a property -/

theorem find?_finRange_eq_some {n : Nat} (p : Fin n → Bool) (i : Fin n) (h : p i = true)
    (hj : ∀ j, j < i → p j = false) : (List.finRange n).find? p = some i := by
  cases hf : (List.finRange n).find? p with
  | none =>
    rw [List.find?_eq_none] at hf
    exact absurd h (hf i (List.mem_finRange i))
  | some j =>
    rw [List.find?_eq_some_iff_getElem] at hf
    obtain ⟨hp, n, hn, hj2, hlt⟩ := hf
    simp at hj2 hlt hn
    have : j.val = n := by rw [← hj2]
    congr 1
    rcases Nat.lt_trichotomy j.val i.val with h1 | h1 | h1
    · exact absurd hp (by simp [hj j h1])
    · exact Fin.ext h1
    · have := hlt i.val (by omega)
      simp at this
      rw [h] at this
      cases this

theorem find?_finRange_eq_none {n : Nat} (p : Fin n → Bool) (h : ∀ i, p i = false) :
    (List.finRange n).find? p = none := by
  rw [List.find?_eq_none]
  intro i _
  simp [h]

/-! ### Codes -/

theorem decodeLine_lineCode (l : Line) : decodeLine (lineCode l) = some l := by cases l <;> rfl

theorem decodeClass_code (c : PollClass) : decodeClass c.code = some c := by cases c <;> rfl

theorem decodeKind_code (k : TransferKind) : decodeKind k.code = some k := by cases k <;> rfl

theorem decodePriority_code (p : Priority) : decodePriority p.code = some p := by cases p <;> rfl

theorem decodeLine_none {b : Byte} (h : 1 < b.toNat) : decodeLine b = none := by
  unfold decodeLine
  split <;> first | rfl | omega

/-- A handle field that names no current tenant (R2, R169). -/
theorem lookupHandle_none {w : Word16} {s : State}
    (h : ∀ x : Handle, decodeHandle w = some x → isStale x s = true) : lookupHandle w s = none := by
  unfold lookupHandle
  cases hd : decodeHandle w with
  | none => rfl
  | some x => simp [h x hd, Option.filter]

/-- A handle field that names a current tenant (R2). -/
theorem lookupHandle_some {w : Word16} {s : State} {x : Handle} (h : decodeHandle w = some x)
    (hs : isStale x s = false) : lookupHandle w s = some x := by
  simp [lookupHandle, h, hs, Option.filter]

end Sys2Proof.Machine
end

