-- ==== Sys2Proof/WellFormed.lean ====
section
/-! DEFINITION. Which commands the outside can send: limits of the host message frame (Table 10-2). -/

namespace Sys2Proof

/-- A host message body is 0–200 bytes (Table 10-2). -/
def bodyFits (body : List Byte) : Bool := body.length ≤ 200

/-- Well-formedness of a command: its operands are ones a frame or an event can carry. -/
def WellFormed : Instr → Bool
  | .identify _ b => bodyFits b
  | .configureLine _ b => bodyFits b
  | .queryLine _ b => bodyFits b
  | .startLine _ b => bodyFits b
  | .stopLine _ b => bodyFits b
  | .resetLine _ b => bodyFits b
  | .addNode _ b => bodyFits b
  | .removeNode _ b => bodyFits b
  | .setNode _ b => bodyFits b
  | .queryNode _ b => bodyFits b
  | .listNodes _ b => bodyFits b
  | .submit _ b => bodyFits b
  | .cancel _ b => bodyFits b
  | .queryTransfer _ b => bodyFits b
  | .discover _ b => bodyFits b
  | .stopDiscovery _ b => bodyFits b
  | .credit _ b => bodyFits b
  | .resetPart _ b => bodyFits b
  | .unknownKind k _ b => !Machine.isRequestKind k && bodyFits b
  | .hostFrameReceived _ => true
  | .badFrameLength x => Machine.isBadLength x.byteData
  | .byteFramingError => true
  | .hostGapTimeout => true
  | .hostBreak => true
  | .replySent _ => true
  | .reportSent => true
  | .announceSent => true
  | .powerOnReset _ => true
  | .resetPinLow => true
  | .resetPinRelease _ => true
  | .frameSent _ => true
  | .echoContention _ => true
  | .lineCharacterReceived _ _ => true
  | .falseStart _ => true
  | .replyComplete _ _ => true
  | .replyWindowExpiry _ => true
  | .gapLimitExceeded _ => true
  | .guardExpiry _ => true
  | .deadlineExpiry _ => true
  | .cycleFloorExpiry _ => true
  | .wakeBreakEnd _ => true
  | .quietComplete _ => true
  | .dominantInQuiet _ => true
  | .stuckDominant _ => true
  | .faultHoldExpiry _ => true
  | .recoveryWatchComplete _ => true
  | .dominantInRecoveryWatch _ => true
  | .hostByteReceived _ => true
  | .hostStartVerified => true
  | .startVerified _ _ => true
  | .receiverArmed _ => true
  | .lineLevelChange _ _ => true

end Sys2Proof
end

