-- ==== Sys2Proof/Tests/Slice0.lean ====
section
/-! SUPPORT. The model's own tests: well-formedness, one step of each command on a small state, and for
each statement a state and operands that meet its hypotheses. -/

set_option Elab.async false

namespace Sys2Proof.Tests

open Sys2Proof.Machine

/-! ### Small states -/

/-- The state after a command, or the state itself where there is none. -/
def after (c : Instr) (s : State) : State :=
  match exec c s with
  | .next t => t
  | _ => s

/-- The part with its ANNOUNCE sent. -/
def idle : State := { State.reset with link := { State.reset.link with transmitter := none } }

/-- Line A RUNNING, its scheduler waiting for the floor, with an ACTIVE node of address 5 at index 3. -/
def running : State :=
  let s := idle.updLine .A fun b =>
    { b with
      guard := { b.guard with lineState := .running }
      scheduler := { b.scheduler with running := true, walk := 64, floor := .running 1 } }
  s.setNode 3 { NodeEntry.reset with
    generation := 1, state := .active, address := 5, acceptedToggle := true }

/-- The handle of that node, 67. -/
def handle : Handle := ⟨3, 1⟩

/-- Line A RUNNING with an engine. -/
def engaged (e : Engine) : State := running.setEngine .A e

/-- A POLL of that node with slot 0 reserved. -/
def poll : Exchange := ⟨.poll 5 true false false, .poll handle (some 0)⟩

/-- A PUT to that node from record 2. -/
def put : Exchange := ⟨.put 5 false false [7], .transfer 2 (some handle)⟩

/-- An INVITE of the range of every identity. -/
def invite : Exchange := ⟨.invite 0 0, .invite⟩

/-- Line A in a state with a reason and a watch, its scheduler stopped. -/
def guarded (l : LineState) (w : Watch) : State :=
  idle.updGuard .A fun g => { g with lineState := l, watch := w }

/-- The parser in a state. -/
def parsing (p : Parser) : State := idle.updLink fun k => { k with parser := p }

/-- Line A's receiver in a state. -/
def hearing (r : ReceiverState) (s : State) : State :=
  s.updReceiver .A fun x => { x with state := r }

/-- Line A's driver on. -/
def driven (s : State) : State :=
  s.updLine .A fun b => { b with pins := { b.pins with tx := .frame, de := true } }

/-- A frame whose two bytes have come: kind 1, sequence 9. -/
def frame : InFrame := ⟨2, [1, 9], crc [2, 1, 9]⟩

/-- A QUEUED PUT of tag 7 in record 2. -/
def queuedRecord : TransferRecord :=
  { TransferRecord.reset with
    state := .queued, tag := 7, target := some handle, payload := [7], deadlineTimer := some 1 }

/-- Line A RUNNING with that record at the head of its NORMAL queue. -/
def queued : State :=
  (running.setRecord 2 queuedRecord).updLine .A fun b => { b with normal := [2] }

/-- Line A RUNNING with that record in flight. -/
def flying (e : Engine) : State :=
  (engaged e).setRecord 2 { queuedRecord with state := .inFlight, deadlineTimer := none }

/-- Line A RUNNING with a discovery run. -/
def discovering (stack : List IdRange) (e : Engine) : State :=
  (engaged e).updDiscovery .A fun d => { d with active := true, stack := stack }

/-! ### Well-formedness refuses each ill-formed command -/

/-- A body longer than a frame holds. -/
def tooLong : List Byte := List.replicate 201 0

theorem test_wellFormed_bodies :
    [Instr.identify 0 tooLong, .configureLine 0 tooLong, .queryLine 0 tooLong, .startLine 0 tooLong,
      .stopLine 0 tooLong, .resetLine 0 tooLong, .addNode 0 tooLong, .removeNode 0 tooLong,
      .setNode 0 tooLong, .queryNode 0 tooLong, .listNodes 0 tooLong, .submit 0 tooLong,
      .cancel 0 tooLong, .queryTransfer 0 tooLong, .discover 0 tooLong, .stopDiscovery 0 tooLong,
      .credit 0 tooLong, .resetPart 0 tooLong, .unknownKind 0 0 tooLong].all
        (fun c => !WellFormed c) = true := by decide +kernel

theorem test_wellFormed_longestBody : WellFormed (.identify 0 (List.replicate 200 0)) = true := by
  decide +kernel

theorem test_wellFormed_unknownKind :
    WellFormed (.unknownKind 0x12 0 []) = false ∧ WellFormed (.unknownKind 1 0 []) = false ∧
      WellFormed (.unknownKind 0 0 []) = true ∧ WellFormed (.unknownKind 0x13 0 []) = true := by
  decide

theorem test_wellFormed_badFrameLength :
    WellFormed (.badFrameLength (.ofByte 2)) = false ∧
      WellFormed (.badFrameLength (.ofByte 202)) = false ∧
      WellFormed (.badFrameLength (.ofByte 1)) = true ∧
      WellFormed (.badFrameLength (.ofByte 203)) = true := by decide

/-! ### Formats -/

theorem test_crc_ofTheDigits :
    crc [0x31, 0x32, 0x33, 0x34, 0x35, 0x36, 0x37, 0x38, 0x39] = 0x29B1 := by decide +kernel

theorem test_handle_number : (Handle.mk 5 1).number = 69 ∧ decodeHandle 69 = some ⟨5, 1⟩ := by
  decide

theorem test_frame_pollBytes :
    (MasterFrame.poll 9 true false true).bytes.take 3 = [0x89, 0xA1, 0] := by decide

theorem test_frame_inviteBytes :
    (MasterFrame.invite 3 0xA0000000).bytes.take 8 = [0xFE, 5, 5, 3, 0, 0, 0, 0xA0] := by decide

/-- R156: 0xC3 on HTX, first bit first; 10 bits to a byte; the rates of the strap codes. -/
theorem test_byteBits :
    byteBits 0xC3 = [false, true, true, false, false, false, false, true, true, true] ∧
      State.reset.link.htxBits.length = 10 * 20 ∧ idle.link.htxBits = [] ∧
      [0, 1, 2, 3].map hostRate = [115200, 230400, 460800, 921600] ∧
      hostByteTime 0 = 10 * 8 * 32 * 25 := by decide +kernel

theorem test_decodeTableWord : decodeTableWord 16 0 = none ∧
    (State.reset.withFetchWord 16 0).pending = [] := by decide

/-! ### One step of each command -/

theorem test_step_idle : step idle = .next idle := rfl

theorem test_identify :
    (after (.identify 7 []) idle).link.transmitter = some (.reply ⟨0x81, 7,
      [0, 0x31, 0x5C, 0x64, 2, 1, 2, 64, 32, 16, 117, 4, 48, 33, 0]⟩) := by decide +kernel

theorem test_configureLine :
    ((after (.configureLine 7 [1, 7, 9, 15, 4, 15, 8, 0xE8, 3, 255, 1, 125]) idle).line
      .B).guard.params = ⟨7, 9, 15, 4, 15, 8, 1000, 255, 1, 125⟩ := by decide +kernel

theorem test_queryLine :
    (after (.queryLine 7 [0, 0]) idle).link.transmitter = some (.reply ⟨0x83, 7,
      [0, 4, 4, 2, 2, 3, 2, 100, 0, 10, 64, 125, 0, 0, 0] ++ List.replicate 18 0 ++
        [0, 0, 0, 0, 0]⟩) := by decide +kernel

theorem test_startLine :
    ((after (.startLine 7 [0]) idle).line .A).guard.lineState = .starting ∧
      ((after (.startLine 7 [0]) idle).line .A).pins.de = true := by decide +kernel

theorem test_stopLine :
    ((after (.stopLine 7 [0]) queued).line .A).guard.lineState = .down ∧
      ((after (.stopLine 7 [0]) queued).record 2).result = some .aborted := by decide +kernel

theorem test_resetLine :
    ((after (.resetLine 7 [0]) (flying (.awaiting put (some 1)))).record 2).result = some .aborted := by
  decide +kernel

theorem test_addNode :
    (after (.addNode 7 [0, 5, 1]) idle).link.transmitter =
      some (.reply ⟨0x87, 7, [0, 64, 0]⟩) := by decide +kernel

theorem test_removeNode :
    ((after (.removeNode 7 [67, 0]) queued).node 3).state = .free ∧
      ((after (.removeNode 7 [67, 0]) queued).record 2).result = some .nodeGone := by
  decide +kernel

theorem test_setNode :
    ((after (.setNode 7 [67, 0, 2, 1]) running).node 3).state = .parked ∧
      ((after (.setNode 7 [67, 0, 2, 1]) running).node 3).pollClass = .slow := by decide +kernel

theorem test_queryNode :
    (after (.queryNode 7 [67, 0]) running).link.transmitter = some (.reply ⟨0x8A, 7,
      [0, 67, 0, 2, 0, 5, 0, 0, 0, 0, 0, 0, 0, 0, 1, 0, 0, 0, 0, 0, 0, 0]⟩) := by decide +kernel

theorem test_listNodes :
    (after (.listNodes 7 [0]) running).link.transmitter =
      some (.reply ⟨0x8B, 7, [0, 1, 67, 0, 2]⟩) := by decide +kernel

theorem test_submit :
    ((after (.submit 7 [0, 1, 0, 0, 1, 67, 0, 2, 0, 0, 9]) running).line .A).engine =
      .sending ⟨.put 5 false false [9], .transfer 0 (some handle)⟩ 0 false := by decide +kernel

theorem test_cancel :
    ((after (.cancel 7 [7, 0]) queued).record 2).result = some .cancelled := by decide +kernel

theorem test_queryTransfer :
    (after (.queryTransfer 7 [7, 0]) queued).link.transmitter = some (.reply ⟨0x8E, 7,
      [0, 1, 0, 0, 0, 0, 1, 0xFF]⟩) := by decide +kernel

theorem test_discover :
    ((after (.discover 7 [0]) running).line .A).engine =
      .sending ⟨.invite 0 0, .invite⟩ 0 false := by decide +kernel

theorem test_stopDiscovery :
    ((after (.stopDiscovery 7 [0]) (discovering [.all] .idle)).line .A).discovery.lastResult =
      some ⟨.cancelled, 0, 0, 0, 0⟩ := by decide +kernel

theorem test_credit : (after (.credit 7 [255]) idle).link.credits = 255 := by decide +kernel

theorem test_resetPart : (after (.resetPart 7 []) idle).link.resetPending = true := by
  decide +kernel

theorem test_unknownKind :
    (after (.unknownKind 0x13 7 []) idle).link.transmitter = some (.reply ⟨0xFF, 7, [2, 0x13]⟩) := by
  decide +kernel

theorem test_hostFrameReceived :
    (after (.hostFrameReceived (.ofByte ((crc [2, 1, 9]).extractLsb' 8 8)))
      (parsing (.check frame (some ((crc [2, 1, 9]).extractLsb' 0 8))))).link.inbox.length = 1 := by
  decide +kernel

theorem test_hostFrameReceived_badCheck :
    (after (.hostFrameReceived (.ofByte 0)) (parsing (.check frame (some 0)))).link.notice =
      ⟨1, 0, 0, none, true⟩ := by decide +kernel

theorem test_badFrameLength :
    (after (.badFrameLength (.ofByte 203)) (parsing .length)).link.notice = ⟨0, 1, 0, none, true⟩ := by
  decide +kernel

theorem test_byteFramingError :
    (after .byteFramingError (parsing .length)).link.notice.framingFailures = 1 ∧
      (after .byteFramingError (parsing .hunt)).link.notice.framingFailures = 0 := by decide +kernel

theorem test_hostGapTimeout :
    (after .hostGapTimeout (idle.updLink fun k =>
      { k with parser := .length, gapTimer := some 1 })).link.parser = .hunt := by decide +kernel

theorem test_hostBreak : (after .hostBreak (parsing (.body ⟨9, [], 0⟩))).link.parser = .hunt := by
  decide +kernel

theorem test_hostByteReceived :
    (after (.hostByteReceived ⟨byteWord 0xC3, 0x3FF, byteWord 0xC3⟩) idle).link.parser = .length ∧
      (after (.hostByteReceived ⟨0x3FF, 0x3FF, byteWord 0xC3⟩) idle).link = idle.link ∧
      (after (.hostByteReceived (.clean 0)) idle).link.receiver = .stopLow := by decide +kernel

/-- R158: the bytes of a frame are the request it carries. -/
theorem test_receiveBytes :
    (match receiveBytes (Message.frame ⟨0x11, 9, [0xC3]⟩) idle, exec (.credit 9 [0xC3]) idle with
      | .next t, .next u => t == u
      | _, _ => false) = true := by decide +kernel

theorem test_hostStartVerified :
    (after .hostStartVerified (idle.updLink fun k => { k with gapTimer := some 1 })).link.gapTimer =
      none := by decide +kernel

theorem test_replySent :
    (after (.replySent 0) (after (.identify 7 []) idle)).link = idle.link := by decide +kernel

theorem test_replySent_resets :
    (after (.replySent 2) (after (.resetPart 7 []) queued)).link.transmitter =
      some (.announce (announceMessage .request)) := by decide +kernel

theorem test_reportSent :
    ((after .reportSent (idle.updLink fun k => { k with
      transmitter := some (.report (.data 4) ⟨0x43, 0, []⟩) })).slot 4).state = .free := by
  decide +kernel

theorem test_announceSent : (after .announceSent State.reset).link.transmitter = none := by
  decide +kernel

theorem test_powerOnReset : after (.powerOnReset 0) queued = State.reset := by decide +kernel

theorem test_resetPin :
    (after (.resetPinRelease 3) (after .resetPinLow queued)).link.transmitter =
      some (.announce (announceMessage .pin)) := by decide +kernel

theorem test_frameSent :
    ((after (.frameSent .A) (engaged (.sending poll 5 false))).line .A).engine =
      .awaiting poll (some (4 * charTime .default)) := by decide +kernel

/-- R143: DE off with the last echo outstanding, which then ends the frame or is contention. -/
theorem test_frameSent_lastEcho :
    let s := hearing .bits (after (.frameSent .A) (driven (engaged (.sending poll 4 false))))
    let last : BitVec 10 := 0x200 ||| (poll.frame.bytes.getLastD 0).zeroExtend 10
    (s.line .A).pins.de = false ∧ (s.line .A).engine = .sending poll 4 false ∧
      ((after (.lineCharacterReceived .A (.clean last)) s).line .A).engine =
        .awaiting poll (some (4 * charTime .default)) ∧
      ((after (.lineCharacterReceived .A (.clean (last ^^^ 1))) s).line .A).guard.counters.contention
        = 1 := by decide +kernel

theorem test_echoContention :
    ((after (.echoContention .A) (flying (.sending put 0 true))).line .A).normal = [2] := by
  decide +kernel

theorem test_lineCharacterReceived :
    ((after (.lineCharacterReceived .A (.clean 0x305))
      (hearing .bits (engaged (.awaiting poll (some 1))))).line .A).engine =
      .receiving poll [5] (some (2 * charTime .default)) := by decide +kernel

theorem test_falseStart :
    ((after (.falseStart .A) (hearing .start running)).line .A).guard.counters.falseStarts = 1 ∧
      after (.falseStart .A) running = running := by decide +kernel

theorem test_startVerified :
    ((after (.startVerified .A true) (hearing .start running)).line .A).receiver = ⟨.bits, true⟩ ∧
      after (.startVerified .A true) running = running := by decide +kernel

theorem test_receiverArmed :
    ((after (.receiverArmed .A) running).line .A).receiver.state = .searchArmed := by decide +kernel

theorem test_lineLevelChange :
    ((after (.lineLevelChange .A .dominant) running).line .A).guard.stuckRun =
      some (4 * charTime .default) := by decide +kernel

/-- The bytes of an ACK from address 5. -/
def ackBytes : List Byte := replyBytes 5 .ack

theorem test_replyComplete :
    (after (.replyComplete .A (.clean (0x200 ||| (ackBytes.getLastD 0).zeroExtend 10)))
      (hearing .bits (flying (.receiving put ackBytes.dropLast none)))).record 2 =
      { queuedRecord with
        state := .completed, attempts := 1, result := some .done, deadlineTimer := none } := by
  decide +kernel

theorem test_replyWindowExpiry :
    ((after (.replyWindowExpiry .A) (engaged (.awaiting poll (some 1)))).node 3).state = .silent := by
  decide +kernel

theorem test_gapLimitExceeded :
    ((after (.gapLimitExceeded .A) (engaged (.receiving poll [5] (some 1)))).line
      .A).guard.counters.badReply = 1 := by decide +kernel

theorem test_guardExpiry :
    ((after (.guardExpiry .A) (queued.setEngine .A (.guard poll .noReply 1))).line .A).engine =
      .sending put 0 false := by decide +kernel

theorem test_deadlineExpiry :
    ((after (.deadlineExpiry 2) queued).record 2).result = some .expired := by decide +kernel

theorem test_cycleFloorExpiry :
    ((after (.cycleFloorExpiry .A) running).line .A).engine =
      .sending ⟨.poll 5 true false false, .poll handle (some 0)⟩ 0 false := by decide +kernel

theorem test_wakeBreakEnd :
    ((after (.wakeBreakEnd .A) (guarded .starting (.wakeBreak 1))).line .A).guard.watch =
      .quiet (8 * charTime .default) := by decide +kernel

theorem test_quietComplete :
    ((after (.quietComplete .A) (guarded .starting (.quiet 1))).line .A).guard.lineState =
      .running := by decide +kernel

theorem test_dominantInQuiet :
    ((after (.dominantInQuiet .A) (guarded .starting (.quiet 1))).line .A).guard.faultReason =
      .startNotQuiet := by decide +kernel

theorem test_stuckDominant :
    ((after (.stuckDominant .A) (running.updGuard .A fun g => { g with stuckRun := some 1 })).line
      .A).guard.faultReason = .stuck := by decide +kernel

theorem test_faultHoldExpiry :
    ((after (.faultHoldExpiry .A) (idle.updGuard .A fun g =>
      { g with lineState := .faulted, holdTimer := some 1 })).line .A).guard.lineState =
      .recovering := by decide +kernel

theorem test_recoveryWatchComplete :
    ((after (.recoveryWatchComplete .A) (guarded .recovering (.recovery 1))).line .A).guard.startCause
      = .recovery := by decide +kernel

theorem test_dominantInRecoveryWatch :
    ((after (.dominantInRecoveryWatch .A) (guarded .recovering (.recovery 1))).line
      .A).guard.faultReason = .recoveryNotQuiet := by decide +kernel

/-! ### A state and operands for the hypotheses of each statement -/

/-- A frame's check, high byte and low byte. -/
def checkHigh : Byte := (crc [2, 1, 9]).extractLsb' 8 8

/-- The low byte. -/
def checkLow : Byte := (crc [2, 1, 9]).extractLsb' 0 8

/-- The inbox holds `n` entries. -/
def held (n : Nat) : State :=
  idle.updLink fun k => { k with inbox := List.replicate n ⟨1, 0, [], .waiting⟩ }

/-- The report queue holds a LINK report and the count holds `n` credits. -/
def credited (n : BitVec 8) : State :=
  { idle with
    link := { idle.link with credits := n, notice := ⟨1, 0, 0, none, true⟩ }
    reports := [.link] }

/-- The message in transmission. -/
def sending (x : Transmission) : State := idle.updLink fun k => { k with transmitter := some x }

/-- A PUT awaits its reply on line A, and the window's expiry is the next command. -/
def busy : State := { flying (.awaiting put (some 1)) with pending := [.replyWindowExpiry .A] }

/-- Every entry PENDING: none can be allocated. -/
def fullTable : State :=
  { idle with nodes := Vector.replicate 64 { NodeEntry.reset with state := .pending } }

/-- No record FREE. -/
def fullPool : State :=
  { running with records := Vector.replicate 32 { queuedRecord with tag := 9 } }

/-- The deepest stack: 33 ranges. -/
def deepStack : List IdRange :=
  ⟨0, 32, 2⟩ :: (List.range 32).map fun k => ⟨0, 32 - k, 0⟩

/-- Line A's node 3 changed. -/
def withNode (f : NodeEntry → NodeEntry) (s : State) : State := s.setNode 3 (f (s.node 3))

/-- Line A's blocks changed. -/
def withLine (f : LineBlock → LineBlock) (s : State) : State := s.updLine .A f

/-- Line A STOPPING. -/
def stopping (s : State) : State :=
  withLine (fun b => { b with
    guard := { b.guard with lineState := .stopping }
    scheduler := { b.scheduler with running := false, floor := .stopped } }) s

/-- Line A FAULTED with its fault hold running. -/
def faulted (e : Engine) (stop : Bool) : State :=
  withLine (fun b => { b with
    engine := e
    guard := { b.guard with
      lineState := .faulted, faultReason := .stuck, holdTimer := some 1, stopAfterHold := stop } })
    idle

/-- Line A's RX dominant. -/
def dominant (s : State) : State :=
  withLine (fun b => { b with pins := { b.pins with rx := .dominant } }) s

/-- A step of a run in progress. -/
def stepping (stack : List IdRange) (e : Engine) : State :=
  withLine (fun b => { b with scheduler := { b.scheduler with stepInProgress := true } })
    (discovering stack e)

/-- The range of every identity. -/
def everyId : IdRange := ⟨0, 0, 0⟩

/-- An ASSIGN of address 64 to a bound node. -/
def assigning (reused : Option Handle) : Exchange := ⟨.assign 9 64, .assign reused⟩

/-- A run that binds identity 9 with an assignment. -/
def binding (top : IdRange) (a : Assignment) (e : Engine) : State :=
  (stepping [top] e).updDiscovery .A fun d => { d with bid := some 9, assignment := some a }

theorem witness_StepRunsTheFrontCommand : State.reset.pending = [] := rfl

/-- ReportQueueHoldsEachSourceOnce, NodeAddressesStayUnique, LineBlocksStayLegal, HostLinkStaysConsistent,
TransferPoolStaysConsistent and ReceiveStoreStaysConsistent: a state that meets each, with a command. -/
theorem witness_Invariants :
    NoticesOk busy ∧ NodesOk busy ∧ LinkOk busy ∧ SlotsOk busy ∧ ∃ t, step busy = .next t :=
  ⟨by decide +kernel, by decide +kernel, by decide +kernel, by decide +kernel, _, rfl⟩

set_option synthInstance.maxSize 1000 in
set_option synthInstance.maxHeartbeats 2000000 in
theorem witness_LinesAndPool : LinesOk busy ∧ PoolOk busy :=
  ⟨by decide +kernel, by decide +kernel⟩

theorem witness_StoppedLinesKeepEmptyQueues (l : Line) : StoppedEmpty (busy.line l) := by
  cases l <;> decide +kernel

theorem witness_RangeStackNeverPasses33 (l : Line) :
    let s := discovering deepStack (.awaiting invite (some 1))
    StackOk (s.line l).discovery ∧ RunOk (s.line l).discovery ∧
      (s.line .A).discovery.stack.length = 33 := by cases l <;> decide +kernel

/-- The split's clauses: the top of the deepest stack has length 32, another length 31. -/
theorem witness_RangeStack_split :
    ({ Discovery.reset with stack := deepStack } : Discovery).stack = ⟨0, 32, 2⟩ :: deepStack.tail ∧
      ({ Discovery.reset with stack := [⟨0, 31, 0⟩] } : Discovery).stack = ⟨0, 31, 0⟩ :: [] := by
  decide +kernel

theorem witness_ReceivedFrameIsItsCommand :
    idle.resetPin = .high ∧ idle.link.receiver = .search ∧ idle.link.parser = .hunt ∧
      idle.link.gapTimer = none ∧
      arbitrate idle = idle ∧ (List.replicate 200 (0 : Byte)).length ≤ 200 := by decide +kernel

theorem witness_SecondCheckByteJudgesTheFrame :
    let s := parsing (.check frame (some checkLow))
    let good := Samples.ofByte checkHigh
    let bad := Samples.ofByte (checkHigh + 1)
    s.resetPin = .high ∧ s.link.parser = .check frame (some checkLow) ∧
      s.link.receiver ≠ .stopLow ∧ good.value.getLsbD 0 = false ∧ good.value.getLsbD 9 = true ∧
      (good.value.extractLsb' 1 8 : Byte) ++ checkLow = frame.check ∧
      frame.bytes = 1 :: 9 :: [] ∧ bad.value.getLsbD 0 = false ∧ bad.value.getLsbD 9 = true ∧
      (bad.value.extractLsb' 1 8 : Byte) ++ checkLow ≠ frame.check := by decide +kernel

theorem witness_SecondCheckByte_notDue (f : InFrame) (first : Byte) :
    idle.link.parser ≠ .check f (some first) := by
  rw [show idle.link.parser = .hunt from rfl]; exact nofun

theorem witness_ReceivedByteAdvancesTheParser :
    let s (p : Parser) := (parsing p).link.parser
    let data (b : Byte) : Byte := (Samples.ofByte b).value.extractLsb' 1 8
    let watching := idle.updLink fun k => { k with receiver := .stopLow }
    watching.resetPin = .high ∧ watching.link.receiver = .stopLow ∧
      (parsing .hunt).link.receiver ≠ .stopLow ∧
      (Samples.clean (0x3FF : BitVec 10)).value.getLsbD 0 = true ∧
      (Samples.clean (0 : BitVec 10)).value.getLsbD 0 = false ∧
      (Samples.clean (0 : BitVec 10)).value.getLsbD 9 = false ∧
      (∀ b : Byte, (Samples.ofByte b).value.getLsbD 0 = false ∧
        (Samples.ofByte b).value.getLsbD 9 = true) ∧
      (parsing .hunt).resetPin = .high ∧ s .hunt = .hunt ∧ data 0xC3 = 0xC3 ∧ data 0xC2 ≠ 0xC3 ∧
      s .length = .length ∧ 2 ≤ (data 2).toNat ∧ (data 202).toNat ≤ 202 ∧
      s (.body frame) = .body frame ∧ s (.check frame none) = .check frame none := by
  decide +kernel

theorem witness_AbandonedFramesAreCounted :
    let data (b : Byte) : Byte := (Samples.ofByte b).value.extractLsb' 1 8
    (parsing .length).resetPin = .high ∧ (parsing .length).link.parser = .length ∧
      (parsing .length).link.receiver ≠ .stopLow ∧
      (Samples.ofByte 1).value.getLsbD 0 = false ∧ (Samples.ofByte 1).value.getLsbD 9 = true ∧
      (data 1).toNat < 2 ∧ 202 < (data 203).toNat ∧ (parsing .length).link.parser ≠ .hunt ∧
      idle.link.parser = .hunt ∧ idle.link.receiver = .search ∧
      (after .hostStartVerified idle).link.receiver ≠ .search ∧
      (idle.updLink fun k => { k with gapTimer := some 1 }).link.gapTimer.isSome = true := by
  decide +kernel

theorem witness_ArbiterChoosesInOrder :
    let e : InboxEntry := ⟨1, 0, [], .ready ⟨0x81, 0, []⟩⟩
    let entry := idle.updLink fun k => { k with inbox := [e] }
    let due := idle.updLink fun k => { k with announcePending := some .power }
    State.reset.link.transmitter.isSome = true ∧ idle.link.transmitter = none ∧
      due.link.transmitter = none ∧ due.link.announcePending = some .power ∧
      idle.link.announcePending = none ∧ entry.link.inbox = [] ++ e :: [] ∧
      idle.link.inbox = [] ∧ idle.reports = [] ∧
      (credited 0).link.credits = 0 ∧ (credited 1).reports = [.link] ∧
      (credited 1).link.transmitter = none ∧ (credited 1).link.inbox = [] ∧
      (credited 1).link.credits ≠ 0 := by decide +kernel

theorem witness_EndedTransmissionFreesItsSource :
    let e : InboxEntry := ⟨1, 0, [], .sending ⟨0x81, 0, []⟩⟩
    let s := (sending (.reply ⟨0x81, 0, []⟩)).updLink fun k => { k with inbox := [e] }
    let report (x : Source) := sending (.report x ⟨0x41, 0, []⟩)
    s.resetPin = .high ∧ s.link.transmitter = some (.reply ⟨0x81, 0, []⟩) ∧
      s.link.resetPending = false ∧ s.link.inbox = [] ++ e :: [] ∧
      (report (.completion 31)).link.transmitter = some (.report (.completion 31) ⟨0x41, 0, []⟩) ∧
      (report (.data 15)).link.transmitter = some (.report (.data 15) ⟨0x41, 0, []⟩) ∧
      (∀ r : RecordIndex, Source.node 63 ≠ .completion r) ∧
      (∀ k : SlotIndex, Source.node 63 ≠ .data k) ∧
      State.reset.link.transmitter = some (.announce (announceMessage .power)) := by decide +kernel

theorem witness_ResetsRestoreEveryBlock :
    let low (b : Bool) : State := { idle with resetPin := .low b }
    let s := after (.resetPart 7 []) idle
    idle.resetPin = .high ∧ (low false).resetPin = .low false ∧ (low true).resetPin = .low true ∧
      s.resetPin = .high ∧ s.link.resetPending = true ∧
      s.link.transmitter = some (.reply ⟨0x92, 7, [0]⟩) := by decide +kernel

theorem witness_HeldInResetNothingHappens :
    let s : State := { idle with resetPin := .low false }
    let c : Instr := .identify 0 []
    s.resetPin = .low false ∧ (∀ x : BitVec 2, c ≠ .powerOnReset x) ∧
      (∀ x : BitVec 2, c ≠ .resetPinRelease x) ∧ ∀ (l : Line) (v : Level), c ≠ .lineLevelChange l v :=
  ⟨rfl, nofun, nofun, nofun⟩

/-- Every statement about an accepted request: `Ready`, at an empty inbox and at three entries. -/
theorem witness_Ready : Ready idle ∧ Ready (held 3) ∧ Ready running ∧ Ready queued := by
  decide +kernel

theorem witness_BadLengthAndBadLineAreRefused :
    (0x01, Instr.identify 0 [0]) ∈ requestRows 0 [0] ∧ lengthFits 0x01 1 = false ∧
      lengthFits 0x0C 9 = false ∧ lengthFits 0x0C 59 = false ∧ lengthFits 0x07 4 = false ∧
      1 < (2 : Byte).toNat ∧ (0x04, Instr.startLine 0 [2]) ∈ requestRows 0 [2] ∧
      (0x04 : Byte) ∈ ([0x04, 0x05, 0x06, 0x0B, 0x0F, 0x10] : List Byte) := by decide +kernel

theorem witness_UnknownKindIsRefused : 0x12 < (0x13 : Byte).toNat ∧ 0x12 < (0xFF : Byte).toNat := by
  decide

theorem witness_FullInboxDiscardsTheRequest :
    (held 4).resetPin = .high ∧ (held 4).link.inbox.length = 4 ∧
      Instr.unknownKind 0 9 [] ∈ (requestRows 9 []).map (·.2) ++ [.unknownKind 0 9 []] := by
  decide +kernel

theorem witness_CreditAddsToTheCount :
    let s (n : BitVec 8) := idle.updLink fun k => { k with credits := n }
    Ready (s 254) ∧ (1 : Byte) ≠ 0 ∧ (s 254).link.credits.toNat + (1 : Byte).toNat ≤ 255 ∧
      Ready (s 255) ∧ 255 < (s 255).link.credits.toNat + (1 : Byte).toNat := by decide +kernel

theorem witness_ResetPartMakesRequestsWait :
    let s := (held 3).updLink fun k => { k with resetPending := true }
    s.resetPin = .high ∧ s.link.resetPending = true ∧ s.link.inbox.length < 4 ∧
      (0x0C, Instr.submit 7 []) ∈ requestRows 7 [] := by decide +kernel

/-- The ranges of Table 7-4, as the statement writes them. -/
abbrev goodParameters (rate timeout guard gap miss inter hold low high : Byte) : Prop :=
  rate.toNat ≤ 7 ∧ 1 ≤ timeout.toNat ∧ (1 ≤ guard.toNat ∧ guard.toNat ≤ 15) ∧
    (1 ≤ gap.toNat ∧ gap.toNat ≤ 4) ∧ (1 ≤ miss.toNat ∧ miss.toNat ≤ 15) ∧
    (1 ≤ inter.toNat ∧ inter.toNat ≤ 8) ∧ 1 ≤ hold.toNat ∧
    (1 ≤ low.toNat ∧ low.toNat ≤ high.toNat ∧ high.toNat ≤ 125)

theorem witness_ConfigureLineSetsTheParameters :
    1 < (2 : Byte).toNat ∧ (1 : Byte) = lineCode .B ∧ (running.line .A).guard.lineState ≠ .down ∧
      (idle.line .B).guard.lineState = .down ∧ goodParameters 7 255 15 4 15 8 255 125 125 ∧
      goodParameters 0 1 1 1 1 1 1 1 1 ∧ ¬ goodParameters 8 1 1 1 1 1 1 1 1 ∧
      ¬ goodParameters 0 1 1 1 1 1 1 65 64 := by decide +kernel

theorem witness_QueryLineReadsTheLine :
    Ready running ∧ 1 < (2 : Byte).toNat := by decide +kernel

theorem witness_StartLineResetsTheEntries :
    (running.line .A).guard.lineState ≠ .down ∧ (idle.line .A).guard.lineState = .down := by
  decide +kernel

theorem witness_StopLineTakesTheLineDown :
    let f := faulted (.guard put .lineFault 1) false
    (idle.line .A).guard.lineState = .down ∧
      ((stopping busy).line .A).guard.lineState = .stopping ∧
      (queued.line .A).guard.lineState ≠ .down ∧ (queued.line .A).guard.lineState ≠ .stopping ∧
      (queued.line .A).engine = .idle ∧ Ready f ∧ (f.line .A).guard.lineState = .faulted ∧
      (f.line .A).engine = .guard put .lineFault 1 := by decide +kernel

theorem witness_StopLineLetsTheExchangeRunOn :
    let s := stepping [everyId] (.awaiting invite (some 1))
    Ready busy ∧ (busy.line .A).guard.lineState = .running ∧ (busy.line .A).engine ≠ .idle ∧
      (busy.line .A).scheduler.stepInProgress = false ∧
      Ready s ∧ (s.line .A).guard.lineState = .running ∧ (s.line .A).engine ≠ .idle ∧
      (s.line .A).scheduler.stepInProgress = true := by decide +kernel

theorem witness_ResetLineTakesTheLineDown :
    (queued.line .A).engine = .idle ∧
      ((faulted (.guard put .lineFault 1) false).line .A).engine = .guard put .lineFault 1 ∧
      Ready busy ∧ (busy.line .A).engine.unfixed = some put := by decide +kernel

theorem witness_HandleNumbersNameEntries : 1023 < (1024 : Word16).toNat := by decide

/-- No entry has a handle of this number, as the stale clauses ask. -/
theorem witness_stale (s : State) :
    ∀ h : Handle, decodeHandle ((4 : Byte) ++ (0 : Byte)) = some h → isStale h s = true := by
  intro h hh
  rw [show decodeHandle ((4 : Byte) ++ (0 : Byte)) = none by decide] at hh
  cases hh

/-- The handle clauses: a current tenant's handle. -/
theorem witness_current :
    decodeHandle ((0 : Byte) ++ (67 : Byte)) = some handle ∧ isStale handle running = false ∧
      isStale handle busy = false := by decide +kernel

theorem witness_AddNodeFillsTheLowestEntry :
    let allocatable (s : State) (i : EntryIndex) : Prop := (s.node i).state = .free ∧
      (s.node i).noticePending = false ∧ (s.node i).assignHold = false
    let inUse (s : State) (a : Address) : Prop := ∃ i : EntryIndex, (s.node i).line = .A ∧
      (s.node i).address = a ∧ ((s.node i).state ≠ .free ∨ (s.node i).assignHold = true)
    let known := withNode (fun e => { e with identity := some 9 }) running
    1 < (2 : Byte).toNat ∧ 2 < (3 : Byte).toNat ∧ 125 < (126 : Byte).toNat ∧
      (125 : Byte) = (125 : Address).zeroExtend 8 ∧ inUse running 5 ∧ ¬ inUse known 125 ∧
      ((known.node 3).line = .A ∧ (known.node 3).identity = some 9 ∧ (known.node 3).state ≠ .free) ∧
      ¬ inUse fullTable 125 ∧ (∀ i, ¬ allocatable fullTable i) ∧ ¬ inUse idle 125 ∧
      allocatable idle 0 ∧ ∀ j, j < 0 → ¬ allocatable idle j := by decide +kernel

theorem witness_RemoveNodeFreesTheEntry :
    Ready queued ∧ isStale handle queued = false ∧ inFlightTo 3 queued = false ∧
      Ready busy ∧ isStale handle busy = false ∧ inFlightTo 3 busy = true := by decide +kernel

theorem witness_SetNodeChangesClassAndParks :
    let parked := withNode (fun e => { e with state := .parked }) running
    (2 < (3 : Byte).toNat ∧ (3 : Byte) ≠ 0xFF) ∧ (2 : Byte).toNat ≤ 2 ∧ (0 : Byte).toNat ≤ 2 ∧
      ¬ ((2 : Byte) = 0xFF ∧ (0 : Byte) = 0) ∧ ¬ ((0xFF : Byte) = 0xFF ∧ (1 : Byte) = 0) ∧
      Ready parked ∧ isStale handle parked = false ∧ (parked.node 3).state = .parked ∧
      (running.node 3).state ≠ .parked := by decide +kernel

/-- NodeQueriesReadTheTable: the clauses of QUERY_NODE. -/
theorem witness_NodeQueriesReadTheTable :
    Ready running ∧ decodeHandle ((0 : Byte) ++ (67 : Byte)) = some handle ∧
      isStale handle running = false := by decide +kernel

set_option synthInstance.maxSize 1000 in
set_option synthInstance.maxHeartbeats 2000000 in
theorem witness_SubmitQueuesARecord :
    Ready busy ∧ PoolOk busy ∧ (0xFFFF : Word16) ≠ 0 ∧ (7 : Byte).toNat ≤ 7 ∧
      (List.replicate 48 (0 : Byte)).length ≤ 48 ∧ (TransferKind.put ≠ .take → [(7 : Byte)] ≠ []) ∧
      TransferKind.put ≠ .sendAll ∧ decodeHandle ((0 : Byte) ++ (67 : Byte)) = some handle ∧
      isStale handle busy = false ∧ (busy.node handle.index).state ≠ .lost ∧
      (busy.node handle.index).line = .A ∧ ((0xFF : Byte) ++ (0xFF : Byte) : Word16) = 0xFFFF ∧
      (busy.line .A).guard.lineState ≠ .down ∧ (busy.line .A).guard.lineState ≠ .stopping ∧
      (busy.record 0).state = .free ∧ (∀ q : RecordIndex, q < 0 → (busy.record q).state ≠ .free) ∧
      (∀ q : RecordIndex, (busy.record q).state ≠ .free → (busy.record q).tag ≠ 0xFFFF) := by
  decide +kernel

theorem witness_SubmitChecksInOrder :
    let lost := withNode (fun e => { e with state := .lost }) running
    let full (s : State) := ∀ r : RecordIndex, (s.record r).state ≠ .free
    let tagged (s : State) := ∃ r : RecordIndex, (s.record r).state ≠ .free ∧ (s.record r).tag = 7
    7 < (8 : Byte).toNat ∧ (0 : Word16) = 0 ∧ (idle.line .A).guard.lineState = .down ∧
      (fullPool.line .A).guard.lineState = .running ∧ full fullPool ∧ ¬ full queued ∧ tagged queued ∧
      ¬ full running ∧ ¬ tagged running ∧ isStale handle lost = false ∧ ¬ full lost ∧ ¬ tagged lost ∧
      (lost.node 3).state = .lost ∧ (running.node 3).state ≠ .lost ∧
      (running.node 3).line ≠ .B := by decide +kernel

set_option synthInstance.maxSize 1000 in
set_option synthInstance.maxHeartbeats 2000000 in
theorem witness_CancelAndQueryFindTheTag :
    let done := after (.replyWindowExpiry .A) (after (.deadlineExpiry 2) queued)
    Ready busy ∧ PoolOk busy ∧
      (∀ r : RecordIndex, (busy.record r).state ≠ .free → (busy.record r).tag ≠ 8) ∧
      (busy.record 2).state = .inFlight ∧ (busy.record 2).tag = 7 ∧ Ready queued ∧ PoolOk queued ∧
      (queued.record 2).state = .queued ∧ (queued.record 2).tag = 7 ∧ Ready done ∧ PoolOk done ∧
      (done.record 2).state = .completed ∧ (done.record 2).tag = 7 := by decide +kernel

theorem witness_DiscoverStartsARun :
    ((discovering [everyId] .idle).line .A).discovery.active = true ∧
      (idle.line .A).discovery.active = false ∧ (idle.line .A).guard.lineState ≠ .running ∧
      (running.line .A).discovery.active = false ∧
      (running.line .A).guard.lineState = .running := by decide +kernel

theorem witness_StopDiscoveryEndsTheRun :
    let s := stepping [everyId] (.awaiting invite (some 1))
    let t := discovering [everyId] .idle
    (idle.line .A).discovery.active = false ∧ Ready s ∧ (s.line .A).discovery.active = true ∧
      (s.line .A).discovery.stopPending = .none ∧ (s.line .A).scheduler.stepInProgress = true ∧
      Ready t ∧ (t.line .A).discovery.active = true ∧ (t.line .A).discovery.stopPending = .none ∧
      (t.line .A).scheduler.stepInProgress = false := by decide +kernel

theorem witness_MasterFramesAreLaidOut :
    (32 ≤ 32 ∧ (0xFFFFFFFF : BitVec 32) <<< 32 = 0#32) ∧ (0 ≤ 32 ∧ (0 : BitVec 32) <<< 0 = 0#32) ∧
      (1 ≤ 32 ∧ (0x80000000 : BitVec 32) <<< 1 = 0#32) := by decide

theorem witness_RepliesAreJudged :
    (1 ≤ (List.replicate 48 (0 : Byte)).length ∧ (List.replicate 48 (0 : Byte)).length ≤ 48) ∧
      [(0 : Byte), 0] ≠ le16 (crc (5 :: 8 :: 0 :: [])) ∧ 0x80 ≤ (0x80 : Byte).toNat ∧
      ((0x17 : Byte) &&& 0x0F).toNat < 8 ∧ 12 < ((0x1D : Byte) &&& 0x0F).toNat ∧
      ((0x08 : Byte) &&& 0x0F).toNat = 8 ∧ ((0x0B : Byte) &&& 0x0F).toNat = 11 ∧
      ((0x09 : Byte) &&& 0x0F).toNat = 9 ∧ [(3 : Byte)] ≠ [1] ∧ [(3 : Byte)] ≠ [2] ∧
      ((0x0A : Byte) &&& 0x0F).toNat = 10 ∧ 48 < (List.replicate 49 (0 : Byte)).length ∧
      ((0x0C : Byte) &&& 0x0F).toNat = 12 ∧ (List.replicate 3 (0 : Byte)).length ≠ 4 ∧
      judgeReply (.put 5 false false [7]) (replyBytes 5 .ack) = .reply .ack ∧
      judgeReply (.put 5 false false [7]) (replyBytes 6 .ack) = .badReply := by decide +kernel

theorem witness_ReceiverEventsMoveTheReceiver :
    running.resetPin = .high ∧ (running.line .A).receiver.state = .searchUnarmed ∧
      (running.line .A).pins.rx = .recessive ∧
      ((hearing .start running).line .A).receiver.state = .start ∧
      ((dominant running).line .A).pins.rx = .dominant := by decide +kernel

theorem witness_LineCharactersReachTheEngine :
    let s (e : Engine) := ((hearing .bits (engaged e)).line .A).engine
    let d := hearing .bits (driven (engaged (.sending put 5 false)))
    let got (n : Nat) : List Byte := [5, 8, 0] ++ List.replicate n 0
    let due (g : List Byte) (n : Byte) (rest : List Byte) : Prop :=
      g = 5 :: 8 :: n :: rest ∧ rest.length = n.toNat + 1
    (engaged .idle).resetPin = .high ∧ ((engaged .idle).line .A).receiver.state ≠ .bits ∧
      ((engaged .idle).line .A).receiver.state ≠ .stop ∧
      (d.line .A).receiver.state = .bits ∧ (d.line .A).engine = .sending put 5 false ∧
      (d.line .A).pins.de = true ∧
      ((after (.frameSent .A) d).line .A).receiver.state = .bits ∧
      ((after (.frameSent .A) d).line .A).engine = .sending put 5 false ∧
      ((after (.frameSent .A) d).line .A).pins.de = false ∧
      s .idle = .idle ∧ s (.guard put .sent 1) = .guard put .sent 1 ∧
      s (.sending put 5 true) = .sending put 5 true ∧
      put.frame.characters[5]?.isSome = true ∧ put.frame.characters.length ≤ 6 ∧
      s (.sending put 6 false) = .sending put 6 false ∧
      s (.awaiting put none) = .awaiting put none ∧
      s (.awaiting put (some 1)) = .awaiting put (some 1) ∧
      s (.receiving put (got 1) none) = .receiving put (got 1) none ∧ due (got 1) 0 [0] ∧
      ¬ due (got 0) 0 [] ∧ 48 < (49 : Byte).toNat ∧ (48 : Byte).toNat ≤ 48 := by decide +kernel

theorem witness_EventsFixOutcomes :
    let all : Exchange := ⟨.sendAll [7], .transfer 2 none⟩
    let s := driven (engaged (.sending put 5 false))
    let third := s.updGuard .A fun g => { g with contentionRun := 2 }
    ((engaged (.sending all 6 false)).line .A).engine = .sending all 6 false ∧
      all.frame = .sendAll [7] ∧ all.frame.characters.length ≤ 6 ∧
      ((driven (engaged (.sending put 6 false))).line .A).engine = .sending put 6 false ∧
      put.frame.characters.length ≤ 6 ∧ (∀ p : List Byte, put.frame ≠ .sendAll p) ∧
      put.frame.characters.length = 5 + 1 ∧ 4 + 1 < put.frame.characters.length ∧
      ((engaged (.sending put 4 false)).line .A).engine = .sending put 4 false ∧
      ((engaged (.sending put 4 true)).line .A).engine = .sending put 4 true ∧
      s.resetPin = .high ∧ (s.line .A).engine = .sending put 5 false ∧ (s.line .A).pins.de = true ∧
      (s.line .A).guard.contentionRun < 2 ∧ 2 ≤ (third.line .A).guard.contentionRun ∧
      (third.line .A).guard.lineState = .running ∧ (third.line .A).engine = .sending put 5 false ∧
      (busy.line .A).engine = .awaiting put (some 1) ∧ (busy.line .A).receiver.state ≠ .bits ∧
      (busy.line .A).receiver.state ≠ .stop ∧
      ((after (.startVerified .A false) (hearing .start busy)).line .A).receiver.state = .bits ∧
      ((engaged (.receiving put [5] (some 1))).line .A).engine = .receiving put [5] (some 1) := by
  refine ⟨?_, ?_, ?_, ?_, ?_, nofun, ?_⟩ <;> decide +kernel

theorem witness_OutcomeIsFixedAtTheLine :
    let s := discovering [everyId] (.awaiting invite (some 1))
    (idle.line .A).engine.unfixed = none ∧ (busy.line .A).engine.unfixed = some put ∧
      (∀ r : RecordIndex, put.carried.record = some r → (busy.record r).line = .A) ∧
      put.carried ≠ .invite ∧ (s.line .A).engine.unfixed = some invite ∧
      (∀ r : RecordIndex, invite.carried.record = some r → (s.record r).line = .A) ∧
      invite.carried = .invite := by decide +kernel

theorem witness_EntryOutcomesFollowTheirRules :
    let e (x : NodeState) (n : Nat) : NodeEntry := { NodeEntry.reset with state := x, missRun := n }
    (e .free 0).state = .free ∧ (e .active 0).state ≠ .free ∧ (e .active 0).removalPending = false ∧
      (e .pending 1).missRun + 1 < 3 ∧ 3 ≤ (e .silent 2).missRun + 1 ∧ 1 ≤ (e .active 0).missRun + 1 ∧
      put.frame.isPut = true ∧ poll.frame.isPut = false ∧ put.frame.restart = false ∧
      ((e .lost 3).state = .pending ∨ (e .lost 3).state = .silent ∨ (e .lost 3).state = .lost) ∧
      (e .parked 0).state = .parked := by decide +kernel

theorem witness_PollOutcomeReachesItsOwners :
    let s := engaged (.awaiting poll (some 1))
    let late := withNode (fun e => { e with restartPending := true }) s
    let left := withNode (fun e => { e with removalPending := true }) s
    let full := engaged (.awaiting ⟨.poll 5 true true false, .poll handle none⟩ (some 1))
    (s.line .A).engine.unfixed = some ⟨.poll 5 true false false, .poll handle (some 0)⟩ ∧
      (s.node 3).state ≠ .free ∧ (s.node 3).removalPending = false ∧
      (left.line .A).engine.unfixed = some poll ∧ (left.node 3).removalPending = true ∧
      (late.line .A).engine.unfixed = some poll ∧ (late.node 3).restartPending = true ∧
      (late.node 3).removalPending = false ∧ (s.node 3).restartPending = false ∧
      (s.node 3).acceptedToggle = true ∧
      (full.line .A).engine.unfixed = some ⟨.poll 5 true true false, .poll handle none⟩ := by
  decide +kernel

/-- The PUT's target one miss from LOST. -/
def dying : State := withNode (fun e => { e with missRun := 2 }) busy

/-- The PUT's target waiting to be removed. -/
def leaving : State := withNode (fun e => { e with removalPending := true }) busy

/-- The PUT with a retry left. -/
def patient : State := busy.setRecord 2 { busy.record 2 with retryBudget := 1 }

set_option synthInstance.maxSize 1000 in
set_option synthInstance.maxHeartbeats 2000000 in
theorem witness_TransferOutcome_pools :
    PoolOk busy ∧ PoolOk dying ∧ PoolOk leaving ∧ PoolOk (stopping busy) ∧ PoolOk patient :=
  ⟨by decide +kernel, by decide +kernel, by decide +kernel, by decide +kernel, by decide +kernel⟩

theorem witness_TransferOutcomeReachesItsOwners :
    let x : Exchange := ⟨put.frame, .transfer 2 (some handle)⟩
    (busy.line .A).engine.unfixed = some x ∧ (dying.line .A).engine.unfixed = some x ∧
      (dying.line .A).guard.params.missLimit = 3 ∧
      (entryOutcome put.frame .noReply 3 (dying.node 3)).lost = true ∧
      (entryOutcome put.frame .noReply 3 (busy.node 3)).lost = false ∧
      (leaving.node 3).removalPending = true ∧ (busy.node 3).removalPending = false ∧
      ((stopping busy).line .A).guard.lineState = .stopping ∧
      (busy.record 2).retryBudget < (busy.record 2).attempts + 1 ∧
      (patient.record 2).attempts + 1 ≤ (patient.record 2).retryBudget := by decide +kernel

theorem witness_DiscoveryOutcomesFollowTheirTable :
    let s (top : IdRange) := stepping [top] (.awaiting invite (some 1))
    let old : Assignment := ⟨3, false, 5, 3⟩
    let new : Assignment := ⟨0, true, 64, 1⟩
    let reuse := binding ⟨0, 0, 2⟩ old (.awaiting (assigning (some handle)) (some 1))
    let left := withNode (fun e => { e with removalPending := true }) reuse
    let unheld := binding everyId new (.awaiting (assigning none) (some 1))
    let claim := (binding everyId new (.awaiting (assigning none) (some 1))).setNode 0
      { NodeEntry.reset with assignHold := true, generation := 1, address := 64 }
    ((s everyId).line .A).engine.unfixed = some invite ∧
      ((s everyId).line .A).discovery.active = true ∧
      ((s everyId).line .A).discovery.stack = everyId :: [] ∧
      ((s ⟨1, 32, 0⟩).line .A).discovery.stack = ⟨1, 32, 0⟩ :: [] ∧
      (9 : Identity) >>> (32 - 0) = (0 : BitVec 32) >>> (32 - 0) ∧
      (9 : Identity) >>> (32 - 32) ≠ (1 : BitVec 32) >>> (32 - 32) ∧
      (reuse.line .A).engine.unfixed = some (assigning (some handle)) ∧
      (reuse.line .A).discovery.stack = ⟨0, 0, 2⟩ :: [] ∧
      (reuse.line .A).discovery.assignment = some old ∧ (reuse.node 3).state ≠ .free ∧
      (reuse.node 3).removalPending = false ∧ 3 ≤ old.sent ∧ old.claimed = false ∧
      (left.line .A).engine.unfixed = some (assigning (some handle)) ∧
      (left.line .A).discovery.assignment = some old ∧ (left.node 3).removalPending = true ∧
      (unheld.line .A).engine.unfixed = some (assigning none) ∧ new.claimed = true ∧
      (unheld.line .A).discovery.assignment = some new ∧ (unheld.node 0).assignHold = false ∧
      (claim.line .A).engine.unfixed = some (assigning none) ∧
      (claim.line .A).discovery.assignment = some new ∧ (claim.node 0).assignHold = true ∧
      new.sent < 3 := by decide +kernel

theorem witness_DiscoveryStepGoesOn :
    let d (stack : List IdRange) (stop : StopPending) (bid : Option Identity) :=
      ((stepping stack .idle).updDiscovery .A fun d => { d with stopPending := stop, bid := bid }).line
        .A |>.discovery
    let known := withNode (fun e => { e with identity := some 9 }) (stepping [everyId] .idle)
    let allocatable (s : State) (i : EntryIndex) : Prop := (s.node i).state = .free ∧
      (s.node i).noticePending = false ∧ (s.node i).assignHold = false
    let free (s : State) (low high : Nat) (a : Address) : Prop := low ≤ a.toNat ∧ a.toNat ≤ high ∧
      ∀ i : EntryIndex, (s.node i).address = a → (s.node i).line = .A →
        (s.node i).state = .free ∧ (s.node i).assignHold = false
    (d [] .none none).stack = [] ∧ (d [everyId] .cancelled none).stack ≠ [] ∧
      (d [everyId] .none none).bid = none ∧ (d [everyId] .none (some 9)).bid = some 9 ∧
      ((known.node 3).line = .A ∧ (known.node 3).state ≠ .free ∧
        (known.node 3).identity = some 9) ∧
      (∀ i, ¬ allocatable fullTable i) ∧ allocatable running 0 ∧
      (∀ a : Address, ¬ free running 5 5 a) ∧ free running 64 125 64 ∧
      ((binding everyId ⟨0, true, 64, 3⟩ .idle).line .A).discovery.assignment =
        some ⟨0, true, 64, 3⟩ := by decide +kernel

theorem witness_GuardExpiryEndsTheExchange :
    let e := Engine.guard put .noReply 1
    let s := stepping [everyId] (.guard invite .noReply 1)
    (flying e).resetPin = .high ∧ ((flying e).line .A).engine = .guard put .noReply 1 ∧
      ((flying e).line .A).guard.lineState = .running ∧
      ((flying e).line .A).discovery.active = false ∧
      (s.line .A).engine = .guard invite .noReply 1 ∧ (s.line .A).guard.lineState = .running ∧
      (s.line .A).discovery.active = true ∧ (s.line .A).scheduler.stepInProgress = true ∧
      ((faulted e false).line .A).engine = .guard put .noReply 1 ∧
      ((faulted e false).line .A).guard.lineState = .faulted ∧
      ((stopping (flying e)).line .A).engine = .guard put .noReply 1 ∧
      ((stopping (flying e)).line .A).guard.lineState = .stopping := by decide +kernel

/-- An entry due on line A, as the statement writes it. -/
abbrev dueOnA (s : State) (i : EntryIndex) : Prop :=
  let e := s.node i
  let every (n : Nat) : Prop := (s.line .A).scheduler.cycle.toNat % n = i.val % n
  e.line = .A ∧
    ((e.state = .pending ∨ e.state = .active ∨ e.state = .silent) ∧
      (e.morePending = true ∨ e.pollClass = .fast ∨ (e.pollClass = .steady ∧ every 4) ∨
        (e.pollClass = .slow ∧ every 16)) ∨
    e.state = .lost ∧ (e.morePending = true ∨ every 32))

/-- The conditions of R54 on line A. -/
abbrev entitledA (s : State) : Prop :=
  (s.line .A).scheduler.running = true ∧ (s.line .A).guard.lineState = .running ∧
    (s.line .A).engine = .idle ∧ (s.line .A).scheduler.stepInProgress = false

/-- One step of the order each: an urgent record, an interleave count that is spent, a walk that
stands at its due entry, a run whose walk is complete, a floor that has elapsed. -/
theorem witness_Scheduler_queues :
    let urgent := withLine (fun b => { b with normal := [], urgent := [2] }) queued
    ¬ entitledA idle ∧ entitledA urgent ∧ (urgent.line .A).urgent = 2 :: [] ∧ entitledA queued ∧
      (queued.line .A).urgent = [] ∧ (queued.line .A).normal = 2 :: [] ∧
      (queued.line .A).scheduler.interleaveCount <
        (queued.line .A).guard.params.interleave.toNat := by decide +kernel

set_option synthInstance.maxSize 1000 in
set_option synthInstance.maxHeartbeats 2000000 in
theorem witness_Scheduler_walk :
    let walk := withLine (fun b => { b with scheduler := { b.scheduler with walk := 3 } }) running
    entitledA walk ∧ (walk.line .A).urgent = [] ∧ (walk.line .A).normal = [] ∧ dueOnA walk 3 ∧
      ∀ j : EntryIndex, 3 ≤ j.val → j < 3 → ¬ dueOnA walk j := by decide +kernel

theorem witness_Scheduler_turn :
    let run := discovering [everyId] .idle
    entitledA run ∧ (run.line .A).normal = [] ∧
      (∀ i : EntryIndex, (run.line .A).scheduler.walk ≤ i.val → ¬ dueOnA run i) ∧
      (run.line .A).scheduler.turnTaken = false ∧ (run.line .A).discovery.active = true ∧
      (run.line .A).discovery.stack ≠ [] := by decide +kernel

theorem witness_SchedulerFollowsTheOrderOfChoice :
    let tired := withLine (fun b =>
      { b with scheduler := { b.scheduler with interleaveCount := 2 } }) queued
    let elapsed := withLine (fun b => { b with scheduler := { b.scheduler with floor := .elapsed } })
      running
    entitledA tired ∧ ¬ (tired.line .A).scheduler.interleaveCount <
        (tired.line .A).guard.params.interleave.toNat ∧
      (∀ i : EntryIndex, (tired.line .A).scheduler.walk ≤ i.val → ¬ dueOnA tired i) ∧
      (tired.line .A).discovery.active = false ∧ (running.line .A).scheduler.floor ≠ .elapsed ∧
      entitledA elapsed ∧ (elapsed.line .A).scheduler.floor = .elapsed := by decide +kernel

theorem witness_PicksBuildTheirExchanges :
    let full : State := { running with
      slots := Vector.replicate 16 { ReceiveSlot.reset with state := .filled } }
    (queued.record 2).kind = .put ∧ (queued.record 2).target = some handle ∧
      (∀ k : SlotIndex, (full.slot k).state ≠ .free) ∧ (running.slot 0).state = .free ∧
      (∀ j : SlotIndex, j < 0 → (running.slot j).state ≠ .free) ∧
      ((discovering [everyId] .idle).line .A).discovery.stack = everyId :: [] := by decide +kernel

theorem witness_TimersExpireRecordsAndFloors :
    queued.resetPin = .high ∧ (queued.record 2).state = .queued ∧
      (queued.record 2).deadlineTimer ≠ none ∧
      (running.line .A).scheduler.floor = .running 1 := by decide +kernel

theorem witness_LinesStartAndRecover :
    let g (s : State) := (s.line .A).guard
    let w := guarded .starting (.wakeBreak 1)
    let q := guarded .starting (.quiet 1)
    let r := guarded .recovering (.recovery 1)
    let f := faulted (.guard put .lineFault 1) true
    w.resetPin = .high ∧ (g w).lineState = .starting ∧ (g w).watch = .wakeBreak 1 ∧
      (g q).watch = .quiet 1 ∧ (q.line .A).pins.rx = .recessive ∧ (g r).lineState = .recovering ∧
      (g r).watch = .recovery 1 ∧ (r.line .A).pins.rx = .recessive ∧
      (g (faulted .idle false)).lineState = .faulted ∧
      (g (faulted .idle false)).holdTimer = some 1 ∧
      (g (faulted .idle false)).stopAfterHold = false ∧
      ((dominant (faulted .idle false)).line .A).pins.rx = .dominant ∧
      (g (faulted .idle true)).stopAfterHold = true ∧
      (f.line .A).engine = .guard put .lineFault 1 := by decide +kernel

theorem witness_FaultsEnterFaulted :
    let g (s : State) := (s.line .A).guard
    let s := running.updGuard .A fun g => { g with stuckRun := some 1 }
    idle.resetPin = .high ∧ (g (guarded .starting (.quiet 1))).watch = .quiet 1 ∧
      (g (guarded .recovering (.recovery 1))).watch = .recovery 1 ∧ (g s).lineState = .running ∧
      (s.line .A).pins.de = false ∧ (g s).stuckRun = some 1 := by decide +kernel

theorem witness_ReportBodiesFollowTheirTables :
    let r := after (.deadlineExpiry 2) queued
    let d := after (.stopDiscovery 7 [0]) (discovering [everyId] .idle)
    (r.record 2).result = some .expired ∧
      (d.line .A).discovery.lastResult = some ⟨.cancelled, 0, 0, 0, 0⟩ := by decide +kernel

end Sys2Proof.Tests
end

/-! The discovery units (06): what each operation does to the two lines' discovery records, and from it
that every step keeps the shape of R106. -/

namespace Sys2Proof.Machine

/-! ### The shape of a range stack (R106) -/

/-- What R106 and Table 6-1 ask of one range. -/
def IdRange.Fits (r : IdRange) : Prop :=
  r.length ≤ 32 ∧ r.value <<< r.length = 0#32 ∧ r.failures < 3

/-- What R106 asks of the ranges under the top: each fits, has a bit at least, is no longer than the top,
and is longer than every one below it. -/
def IdRange.Above (top : IdRange) (rest : List IdRange) : Prop :=
  (∀ r ∈ rest, r.Fits ∧ 1 ≤ r.length ∧ r.length ≤ top.length) ∧
    rest.Pairwise fun x y => y.length < x.length

theorem stackOk_of_nil {d : Discovery} (h : d.stack = []) : StackOk d := by
  simp [StackOk, h]

/-- The shape of R106, for the top and the rest apart. -/
theorem stackOk_cons_iff {d : Discovery} {top : IdRange} {rest : List IdRange}
    (h : d.stack = top :: rest) : StackOk d ↔ top.Fits ∧ top.Above rest := by
  simp only [StackOk, h, List.mem_cons, forall_eq_or_imp, List.tail_cons, List.head?_cons,
    Option.mem_some_iff, forall_eq', IdRange.Above, IdRange.Fits]
  constructor
  · rintro ⟨⟨ht, hr⟩, h1, hl, hp⟩
    exact ⟨ht, fun r m => ⟨hr r m, h1 r m, hl r m⟩, hp⟩
  · rintro ⟨ht, hr, hp⟩
    exact ⟨⟨ht, fun r m => (hr r m).1⟩, fun r m => (hr r m).2.1, fun r m => (hr r m).2.2, hp⟩

theorem stackOk_congr {d e : Discovery} (h : e.stack = d.stack) (hd : StackOk d) : StackOk e := by
  simpa only [StackOk, h] using hd

/-- The range under the top may take its place. -/
theorem IdRange.Above.pop {top second : IdRange} {rest : List IdRange}
    (h : top.Above (second :: rest)) : second.Fits ∧ second.Above rest := by
  obtain ⟨hr, hp⟩ := h
  rw [List.pairwise_cons] at hp
  refine ⟨(hr second (by simp)).1, fun r m => ?_, hp.2⟩
  obtain ⟨hf, h1, -⟩ := hr r (List.mem_cons_of_mem _ m)
  exact ⟨hf, h1, (hp.1 r m).le⟩

theorem stackOk_of_tail {d e : Discovery} (hd : StackOk d) (h : e.stack = d.stack.tail) :
    StackOk e := by
  match hs : d.stack with
  | [] => exact stackOk_of_nil (by simp [h, hs])
  | [_] => exact stackOk_of_nil (by simp [h, hs])
  | top :: second :: rest =>
    have ha := ((stackOk_cons_iff hs).1 hd).2
    exact (stackOk_cons_iff (by simp [h, hs])).2 ha.pop

/-- Both halves of a range shorter than an identity fit: the added bit lies within their length. -/
theorem IdRange.Fits.halves {r : IdRange} (h : r.Fits) (hl : r.length < 32) :
    r.zeroHalf.Fits ∧ r.oneHalf.Fits := by
  obtain ⟨-, hv, -⟩ := h
  have hz : r.value <<< (r.length + 1) = 0#32 := by
    rw [BitVec.shiftLeft_add, hv, BitVec.zero_shiftLeft]
  have ho : (1#32 <<< (31 - r.length)) <<< (r.length + 1) = 0#32 := by
    rw [← BitVec.shiftLeft_add, show 31 - r.length + (r.length + 1) = 32 by omega]
    rfl
  refine ⟨⟨by simp only [zeroHalf]; omega, hz, by simp [zeroHalf]⟩,
    by simp only [oneHalf]; omega, ?_, by simp [oneHalf]⟩
  simp only [oneHalf, BitVec.shiftLeft_or_distrib, hz]
  simpa using ho

/-- The two halves of a top range may take its place. -/
theorem IdRange.Above.split {top : IdRange} {rest : List IdRange} (h : top.Above rest)
    (ht : top.Fits) (hl : top.length < 32) : top.zeroHalf.Above (top.oneHalf :: rest) := by
  obtain ⟨hr, hp⟩ := h
  refine ⟨fun r m => ?_, List.pairwise_cons.2 ⟨fun r m => Nat.lt_succ_of_le (hr r m).2.2, hp⟩⟩
  rcases List.mem_cons.1 m with rfl | m
  · exact ⟨(ht.halves hl).2, Nat.le_add_left 1 _, le_rfl⟩
  · obtain ⟨hf, h1, hle⟩ := hr r m
    exact ⟨hf, h1, Nat.le_succ_of_le hle⟩

/-- Ranges that grow strictly shorter from one to the next, none of length 0, are at most as many as
the longest one's bits. -/
theorem length_le_of_descending (xs : List IdRange) (n : Nat)
    (hb : ∀ r ∈ xs, 1 ≤ r.length ∧ r.length ≤ n)
    (hp : xs.Pairwise fun x y => y.length < x.length) : xs.length ≤ n := by
  induction xs generalizing n with
  | nil => exact Nat.zero_le n
  | cons x xs ih =>
    rw [List.pairwise_cons] at hp
    have hx := hb x (by simp)
    have hrest : xs.length ≤ x.length - 1 := by
      refine ih _ (fun r m => ⟨(hb r (List.mem_cons_of_mem _ m)).1, ?_⟩) hp.2
      have := hp.1 r m
      omega
    rw [List.length_cons]
    omega

theorem stackOk_length_le {d : Discovery} (h : StackOk d) : d.stack.length ≤ 33 := by
  cases hs : d.stack with
  | nil => simp
  | cons top rest =>
    obtain ⟨⟨h32, -⟩, hr, hp⟩ := (stackOk_cons_iff hs).1 h
    have := length_le_of_descending rest top.length (fun r m => (hr r m).2) hp
    rw [List.length_cons]
    omega

/-! ### What outcomes do to a stack (R104, R105, R109, R110) -/

/-- R105: a range shorter than an identity is split. -/
theorem Discovery.collision_split {d : Discovery} {top : IdRange} {rest : List IdRange}
    (h : d.stack = top :: rest) (hl : top.length < 32) :
    d.collision = { d with stack := top.zeroHalf :: top.oneHalf :: rest } := by
  simp [Discovery.collision, h, hl]

/-- R105: a range as long as an identity is dropped as a clash. -/
theorem Discovery.collision_clash {d : Discovery} {top : IdRange} {rest : List IdRange}
    (h : d.stack = top :: rest) (hl : 32 ≤ top.length) :
    d.collision = { d with stack := rest, clashes := satInc d.clashes } := by
  simp [Discovery.collision, h, Nat.not_lt.2 hl]

theorem Discovery.collision_empty {d : Discovery} (h : d.stack = []) : d.collision = d := by
  simp [Discovery.collision, h]

theorem Discovery.collision_active (d : Discovery) : d.collision.active = d.active := by
  unfold collision; split
  · rfl
  · split <;> rfl

theorem stackOk_collision {d : Discovery} (h : StackOk d) : StackOk d.collision := by
  match hs : d.stack with
  | [] => rwa [Discovery.collision_empty hs]
  | top :: rest =>
    rcases Nat.lt_or_ge top.length 32 with hl | hl
    · obtain ⟨ht, ha⟩ := (stackOk_cons_iff hs).1 h
      rw [Discovery.collision_split hs hl]
      exact (stackOk_cons_iff rfl).2 ⟨(ht.halves hl).1, ha.split ht hl⟩
    · rw [Discovery.collision_clash hs hl]
      exact stackOk_of_tail h (by simp [hs])

theorem Discovery.inviteOutcome_active (d : Discovery) (o : ExchangeOutcome) :
    (d.inviteOutcome o).active = d.active := by
  unfold inviteOutcome
  split
  · rfl
  · exact d.collision_active
  · split
    · rfl
    · split
      · rfl
      · exact d.collision_active
  · rfl

theorem stackOk_inviteOutcome {d : Discovery} (o : ExchangeOutcome) (h : StackOk d) :
    StackOk (d.inviteOutcome o) := by
  unfold Discovery.inviteOutcome
  split
  · exact stackOk_of_tail h rfl
  · exact stackOk_collision h
  · split
    · exact h
    · split
      · exact h
      · exact stackOk_collision h
  · exact h

/-- A failure count below the limit may be written on the top range. -/
theorem stackOk_of_recount {d e : Discovery} {top : IdRange} {rest : List IdRange} {n : Nat}
    (hd : StackOk d) (hs : d.stack = top :: rest) (hn : n < 3)
    (h : e.stack = { top with failures := n } :: rest) : StackOk e := by
  obtain ⟨⟨hl, hv, -⟩, ha⟩ := (stackOk_cons_iff hs).1 hd
  exact (stackOk_cons_iff h).2 ⟨⟨hl, hv, hn⟩, ha⟩

theorem stackOk_bound {d : Discovery} (h : StackOk d) : StackOk d.bound := by
  cases hs : d.stack with
  | nil => exact stackOk_of_nil (by simp [Discovery.bound, hs])
  | cons top rest =>
    exact stackOk_of_recount h hs (n := 0) (by decide) (by simp [Discovery.bound, hs])

theorem Discovery.roundFailed_active (d : Discovery) : d.roundFailed.active = d.active := by
  unfold roundFailed; split
  · rfl
  · split <;> rfl

theorem stackOk_roundFailed {d : Discovery} (h : StackOk d) : StackOk d.roundFailed := by
  unfold Discovery.roundFailed
  split
  · exact h
  · rename_i top rest hs
    split
    · rename_i hn
      exact stackOk_of_recount h hs hn rfl
    · exact stackOk_of_tail h (by simp [hs])

/-! ### A legal discovery record -/

/-- A record whose stack has its shape and that holds nothing while inactive. -/
def Discovery.Legal (d : Discovery) : Prop := StackOk d ∧ RunOk d

theorem Discovery.legal_iff_of_active {d : Discovery} (h : d.active = true) :
    d.Legal ↔ StackOk d := by
  simp [Legal, RunOk, h]

theorem Discovery.Legal.stackOk {d : Discovery} (h : d.Legal) : StackOk d := h.1

theorem Discovery.legal_reset : Discovery.reset.Legal := by
  refine ⟨stackOk_of_nil rfl, fun _ => ?_⟩
  simp [Discovery.reset]

theorem Discovery.legal_ended (d : Discovery) (r : StopReason) : (d.ended r).Legal := by
  refine ⟨stackOk_of_nil rfl, fun _ => ?_⟩
  simp [Discovery.ended]

theorem Discovery.legal_started (d : Discovery) : d.started.Legal := by
  refine (legal_iff_of_active rfl).2 ((stackOk_cons_iff rfl).2 ⟨?_, ?_⟩)
  · simp [IdRange.Fits, IdRange.all]
  · simp [IdRange.Above]

/-- A change of an active run that leaves its stack and leaves it active. -/
theorem Discovery.Legal.of_active {d e : Discovery} (h : d.Legal) (ha : e.active = true)
    (hs : e.stack = d.stack) : e.Legal :=
  (legal_iff_of_active ha).2 (stackOk_congr hs h.stackOk)

/-- An active run whose assignment is bound, with one of its counts changed. -/
theorem Discovery.Legal.bound {d e : Discovery} (h : d.Legal) (ha : d.active = true)
    (hact : e.active = d.active) (hs : e.stack = d.bound.stack) : e.Legal :=
  (legal_iff_of_active (hact.trans ha)).2 (stackOk_congr hs (stackOk_bound h.stackOk))

theorem Discovery.Legal.notice {d : Discovery} (h : d.Legal) (b : Bool) :
    Discovery.Legal { d with noticePending := b } := h

theorem Discovery.Legal.forget {d : Discovery} (h : d.Legal) :
    Discovery.Legal { d with assignment := none, bid := none } := by
  refine ⟨h.stackOk, fun hi => ?_⟩
  obtain ⟨hp, hs, -, -⟩ := h.2 hi
  exact ⟨hp, hs, rfl, rfl⟩

/-! ### The two lines' discovery records -/

/-- Each line's discovery record. -/
def State.units (s : State) (l : Line) : Discovery := (s.line l).discovery

/-- Both lines' records are legal. -/
def UnitsLegal (u : Line → Discovery) : Prop := ∀ l, (u l).Legal

theorem State.units_setLine (s : State) (l : Line) (b : LineBlock) :
    (s.setLine l b).units = Function.update s.units l b.discovery := by
  funext m
  by_cases h : m = l
  · subst h; simp [State.units]
  · simp [State.units, State.line_setLine, h]

theorem State.units_updDiscovery (s : State) (l : Line) (f : Discovery → Discovery) :
    (s.updDiscovery l f).units = Function.update s.units l (f (s.units l)) :=
  State.units_setLine ..

/-- An event of one line that leaves its discovery record as it is. -/
theorem State.units_of_line {s u : State} (l : Line)
    (hl : (u.line l).discovery = (s.line l).discovery) (ho : KeptOutside l s u) :
    u.units = s.units := by
  have hline : ∀ m, m = l ∨ m = otherLine l := by intro m; cases l <;> cases m <;> simp [otherLine]
  funext m
  rcases hline m with rfl | rfl
  · exact hl
  · exact congrArg LineBlock.discovery ho.1

theorem UnitsLegal.update {u : Line → Discovery} (h : UnitsLegal u) (l : Line) {d : Discovery}
    (hd : d.Legal) : UnitsLegal (Function.update u l d) := by
  intro m
  by_cases hm : m = l
  · subst hm; simpa using hd
  · simpa [hm] using h m

/-- A change of one line's record into a legal one. -/
theorem UnitsLegal.updDiscovery {s : State} (h : UnitsLegal s.units) (l : Line)
    {f : Discovery → Discovery} (hf : (f (s.units l)).Legal) :
    UnitsLegal (s.updDiscovery l f).units := by
  rw [State.units_updDiscovery]
  exact h.update l hf

/-! ### Writes of other parts of the state leave the discovery records as they are -/

@[simp] theorem State.units_setNode (s : State) (i : EntryIndex) (e : NodeEntry) :
    (s.setNode i e).units = s.units := by funext m; simp [State.units]

@[simp] theorem State.units_setRecord (s : State) (r : RecordIndex) (x : TransferRecord) :
    (s.setRecord r x).units = s.units := by funext m; simp [State.units]

@[simp] theorem State.units_setSlot (s : State) (k : SlotIndex) (x : ReceiveSlot) :
    (s.setSlot k x).units = s.units := by funext m; simp [State.units]

@[simp] theorem State.units_updLink (s : State) (f : HostLink → HostLink) :
    (s.updLink f).units = s.units := by funext m; simp [State.units]

@[simp] theorem State.units_withReports (s : State) (q : List Source) :
    (s.withReports q).units = s.units := by funext m; simp [State.units]

theorem State.units_updLine {s : State} {l : Line} {f : LineBlock → LineBlock}
    (h : (f (s.line l)).discovery = (s.line l).discovery) : (s.updLine l f).units = s.units := by
  rw [State.updLine_eq, State.units_setLine, h]
  exact Function.update_eq_self l s.units

@[simp] theorem State.units_updGuard (s : State) (l : Line) (f : LineGuard → LineGuard) :
    (s.updGuard l f).units = s.units := State.units_updLine rfl

@[simp] theorem State.units_updCounters (s : State) (l : Line) (f : LineCounters → LineCounters) :
    (s.updCounters l f).units = s.units := State.units_updGuard ..

@[simp] theorem State.units_updScheduler (s : State) (l : Line) (f : Scheduler → Scheduler) :
    (s.updScheduler l f).units = s.units := State.units_updLine rfl

@[simp] theorem State.units_setEngine (s : State) (l : Line) (e : Engine) :
    (s.setEngine l e).units = s.units := State.units_updLine rfl

theorem State.units_foldl {α : Type} {f : State → α → State}
    (hf : ∀ t a, (f t a).units = t.units) (xs : List α) (s : State) :
    (xs.foldl f s).units = s.units := by
  induction xs generalizing s with
  | nil => rfl
  | cons x xs ih => exact (ih (f s x)).trans (hf s x)

/-! ### Notices, records and exchanges leave them as they are -/

@[simp] theorem units_enqueue (src : Source) (s : State) : (enqueue src s).units = s.units := by
  simp [enqueue_withReports]

@[simp] theorem units_raiseNodeNotice (i : EntryIndex) (s : State) :
    (raiseNodeNotice i s).units = s.units := by simp [raiseNodeNotice]

@[simp] theorem units_raiseLineNotice (l : Line) (s : State) :
    (raiseLineNotice l s).units = s.units := by simp [raiseLineNotice]

@[simp] theorem units_raiseLinkNotice (f : LinkNotice → LinkNotice) (s : State) :
    (raiseLinkNotice f s).units = s.units := by simp [raiseLinkNotice]

@[simp] theorem units_completeRecord (r : RecordIndex) (result : TransferResult) (s : State) :
    (completeRecord r result s).units = s.units := by simp [completeRecord]

@[simp] theorem units_completeQueued (l : Line) (p : TransferRecord → Bool)
    (result : TransferResult) (s : State) : (completeQueued l p result s).1.units = s.units := by
  obtain ⟨-, -, hl, -, -, -, ho⟩ := completeQueued_spec l p result s
  exact State.units_of_line l (by rw [hl]) ho

@[simp] theorem units_queueTail (r : RecordIndex) (s : State) :
    (queueTail r s).units = s.units := by
  apply State.units_updLine
  split <;> rfl

@[simp] theorem units_queueHead (r : RecordIndex) (s : State) :
    (queueHead r s).units = s.units := by
  apply State.units_updLine
  split <;> rfl

@[simp] theorem units_beginExchange (l : Line) (x : Exchange) (s : State) :
    (beginExchange l x s).units = s.units := State.units_updLine rfl

@[simp] theorem units_releaseDriver (l : Line) (s : State) :
    (releaseDriver l s).units = s.units := by
  apply State.units_updLine
  split <;> rfl

@[simp] theorem units_finishTarget (c : Carried) (s : State) :
    (finishTarget c s).units = s.units := by
  unfold finishTarget completeRemoval
  cases c.target with
  | none => rfl
  | some h => dsimp only; split <;> simp

@[simp] theorem units_finishExchange (l : Line) (c : Carried) (s : State) :
    (finishExchange l c s).units = s.units := by simp [finishExchange]

@[simp] theorem units_cutGuard (l : Line) (s : State) : (cutGuard l s).units = s.units := by
  unfold cutGuard; split <;> simp

@[simp] theorem units_leaveWire (l : Line) (x : Exchange) (o : ExchangeOutcome) (s : State) :
    (leaveWire l x o s).units = s.units := by
  rw [leaveWire, State.units_updLine rfl, units_releaseDriver]

@[simp] theorem units_completeFromQueue (r : RecordIndex) (result : TransferResult) (s : State) :
    (completeFromQueue r result s).units = s.units := by
  rw [completeFromQueue, units_completeRecord, State.units_updLine rfl]

/-! ### What outcomes do to entries, slots and records leaves them as they are -/

@[simp] theorem units_tellNode (i : EntryIndex) (f : MasterFrame) (o : ExchangeOutcome) (l : Line)
    (s : State) : (tellNode i f o l s).1.units = s.units := by simp [tellNode_eq]

@[simp] theorem units_freeSlot (slot : Option SlotIndex) (s : State) :
    (freeSlot slot s).units = s.units := by cases slot <;> simp [freeSlot]

@[simp] theorem units_keepAtNode (i : EntryIndex) (s : State) :
    (keepAtNode i s).units = s.units := by simp [keepAtNode]

@[simp] theorem units_storeData (k : SlotIndex) (i : EntryIndex) (toggle : Bool)
    (payload : List Byte) (s : State) : (storeData k i toggle payload s).units = s.units := by
  simp [storeData]

@[simp] theorem units_tellStore (l : Line) (i : EntryIndex) (slot : Option SlotIndex)
    (f : MasterFrame) (o : ExchangeOutcome) (before : NodeEntry) (s : State) :
    (tellStore l i slot f o before s).units = s.units := by
  unfold tellStore
  split
  · simp
  · split
    · split
      · simp
      · split
        · simp
        · split <;> simp
    · simp

@[simp] theorem units_tellRecord (r : RecordIndex) (o : ExchangeOutcome)
    (gone lost stopping : Bool) (s : State) :
    (tellRecord r o gone lost stopping s).units = s.units := by
  unfold tellRecord; dsimp only; split <;> simp

@[simp] theorem units_loseTransfers (l : Line) (i : EntryIndex) (lost : Bool) (s : State) :
    (loseTransfers l i lost s).units = s.units := by
  cases lost <;> simp [loseTransfers, completeAimedAt]

@[simp] theorem units_releaseClaim (l : Line) (s : State) :
    (releaseClaim l s).units = s.units := by
  funext m
  obtain ⟨-, hline, -⟩ := releaseClaim_spec l s
  exact congrArg LineBlock.discovery (hline m)

@[simp] theorem units_endStep (l : Line) (s : State) : (endStep l s).units = s.units := by
  simp [endStep]

/-! ### The scheduler's choices leave them as they are -/

@[simp] theorem units_openStep (l : Line) (s : State) : (openStep l s).units = s.units := by
  unfold openStep; split <;> simp

@[simp] theorem units_pickRecord (l : Line) (r : RecordIndex) (s : State) :
    (pickRecord l r s).units = s.units := by
  simp only [pickRecord, units_beginExchange, State.units_setRecord]
  exact State.units_updLine rfl

@[simp] theorem units_pickPoll (l : Line) (i : EntryIndex) (s : State) :
    (pickPoll l i s).units = s.units := by
  unfold pickPoll
  cases firstFreeSlot s <;> simp [reserveSlot]

@[simp] theorem units_walkComplete (l : Line) (s : State) :
    (walkComplete l s).units = s.units := by simp [walkComplete]

@[simp] theorem units_endCycle (l : Line) (s : State) : (endCycle l s).units = s.units :=
  State.units_updLine rfl

@[simp] theorem units_applyChoice (l : Line) (c : Choice) (s : State) :
    (applyChoice l c s).units = s.units := by
  cases c <;> simp [applyChoice]

@[simp] theorem units_choose (l : Line) (s : State) : (choose l s).units = s.units := by
  unfold choose
  split
  · split <;> simp
  · rfl

end Sys2Proof.Machine

/-! What outcomes, exchanges and the events of a line do to the discovery records: both stay legal. -/

namespace Sys2Proof.Machine

/-! ### Outcomes keep both records legal (R102, R104, R105, R109 to R111) -/

theorem unitsLegal_tellInvite (l : Line) (o : ExchangeOutcome) {s : State}
    (h : UnitsLegal s.units) :
    UnitsLegal (tellInvite l o s).units := by
  unfold tellInvite
  split
  · rename_i ha
    refine h.updDiscovery l ((Discovery.legal_iff_of_active ?_).2
      (stackOk_inviteOutcome o (h l).stackOk))
    rw [Discovery.inviteOutcome_active]
    exact ha
  · exact h

theorem unitsLegal_bindAssignment (l : Line) (a : Assignment) {s : State} (h : UnitsLegal s.units)
    (ha : (s.units l).active = true) : UnitsLegal (bindAssignment l a s).units := by
  unfold bindAssignment
  dsimp only
  split
  · split
    · refine UnitsLegal.updDiscovery (by simpa using h) l ?_
      simp only [units_raiseNodeNotice, State.units_setNode]
      exact (h l).bound ha rfl rfl
    · exact h
  · split
    · refine UnitsLegal.updDiscovery (by simpa using h) l ?_
      simp only [units_raiseNodeNotice, State.units_setNode]
      exact (h l).bound ha rfl rfl
    · exact h

theorem unitsLegal_failAssignment (l : Line) (a : Assignment) {s : State} (h : UnitsLegal s.units)
    (ha : (s.units l).active = true) : UnitsLegal (failAssignment l a s).units := by
  unfold failAssignment
  split
  · exact h
  · split
    · exact h
    · refine UnitsLegal.updDiscovery (by simpa using h) l ?_
      rw [units_releaseClaim, Discovery.legal_iff_of_active (by rwa [Discovery.roundFailed_active])]
      exact stackOk_roundFailed (h l).stackOk

theorem unitsLegal_tellAssign (l : Line) (o : ExchangeOutcome) {s : State}
    (h : UnitsLegal s.units) :
    UnitsLegal (tellAssign l o s).units := by
  unfold tellAssign
  dsimp only
  split
  · rename_i ha
    split
    · rename_i a _
      cases o with
      | reply c => exact unitsLegal_bindAssignment l a h ha
      | noReply => exact unitsLegal_failAssignment l a h ha
      | badReply => exact unitsLegal_failAssignment l a h ha
      | contention => exact unitsLegal_failAssignment l a h ha
      | lineFault => exact h
      | aborted => exact h
      | sent => exact h
    · exact h
  · exact h

theorem unitsLegal_tellOwners (l : Line) (x : Exchange) (o : ExchangeOutcome) (stopping : Bool)
    {s : State} (h : UnitsLegal s.units) : UnitsLegal (tellOwners l x o stopping s).units := by
  unfold tellOwners
  split
  · simpa using h
  · simpa using h
  · simpa using h
  · exact unitsLegal_tellInvite l o h
  · exact unitsLegal_tellAssign l o h

@[simp] theorem unitsLegal_fixOutcome (l : Line) (o : ExchangeOutcome) {s : State}
    (h : UnitsLegal s.units) : UnitsLegal (fixOutcome l o s).units := by
  cases hx : (s.line l).engine.unfixed with
  | none => rwa [fixOutcome_none hx]
  | some x =>
    rw [fixOutcome_some hx]
    exact unitsLegal_tellOwners l x o _ (by simpa using h)

/-! ### Steps and runs keep both records legal (R103, R108, R112 to R114) -/

@[simp] theorem unitsLegal_endRun (l : Line) (r : StopReason) {s : State} (h : UnitsLegal s.units) :
    UnitsLegal (endRun l r s).units := by
  unfold endRun
  split
  · rw [raiseDiscoveryNotice, units_enqueue]
    have hended : UnitsLegal
        (endStep l ((releaseClaim l s).updDiscovery l fun d => d.ended r)).units := by
      rw [units_endStep]
      exact UnitsLegal.updDiscovery (by simpa using h) l (Discovery.legal_ended _ r)
    exact hended.updDiscovery l ((hended l).notice true)
  · exact h

@[simp] theorem unitsLegal_endRunPending (l : Line) (r : StopReason) {s : State}
    (h : UnitsLegal s.units) : UnitsLegal (endRunPending l r s).units := unitsLegal_endRun l _ h

theorem unitsLegal_sendAssign (l : Line) (a : Assignment) (x : Identity) {s : State}
    (h : UnitsLegal s.units) (ha : (s.units l).active = true) :
    UnitsLegal (sendAssign l a x s).units := by
  unfold sendAssign
  rw [units_beginExchange]
  exact h.updDiscovery l ((h l).of_active ha rfl)

theorem unitsLegal_decideAssignment (l : Line) (x : Identity) {s : State} (h : UnitsLegal s.units)
    (ha : (s.units l).active = true) : UnitsLegal (decideAssignment l x s).units := by
  unfold decideAssignment
  split
  · exact unitsLegal_sendAssign l _ x h ha
  · split
    · exact unitsLegal_endRun l _ h
    · split
      · exact unitsLegal_endRun l _ h
      · exact unitsLegal_sendAssign l _ x (by simpa using h) (by simpa using ha)

theorem unitsLegal_forgetAssignment (l : Line) {s : State} (h : UnitsLegal s.units) :
    UnitsLegal (forgetAssignment l s).units := h.updDiscovery l (h l).forget

theorem unitsLegal_continueStep (l : Line) (c : Carried) {s : State} (h : UnitsLegal s.units)
    (ha : (s.units l).active = true) : UnitsLegal (continueStep l c s).units := by
  unfold continueStep
  dsimp only
  split
  · exact unitsLegal_endRun l _ h
  · split
    · exact unitsLegal_endRun l _ h
    · exact unitsLegal_endRun l _ h
    · split
      · exact unitsLegal_decideAssignment l _ h ha
      · split
        · exact unitsLegal_sendAssign l _ _ h ha
        · simpa using h
      · simpa using h

theorem unitsLegal_exchangeEnded (l : Line) (c : Carried) (gone : Bool) {s : State}
    (h : UnitsLegal s.units) : UnitsLegal (exchangeEnded l c gone s).units := by
  unfold exchangeEnded
  dsimp only
  split
  · rename_i hb
    have ha : (s.units l).active = true := (Bool.and_eq_true_iff.1 hb).1
    cases gone with
    | false => exact unitsLegal_continueStep l c h ha
    | true =>
      refine unitsLegal_continueStep l c (unitsLegal_forgetAssignment l h) ?_
      simpa [forgetAssignment, State.units_updDiscovery] using ha
  · exact h

/-! ### The events of a line's engine -/

@[simp] theorem unitsLegal_enterFaulted (l : Line) (why : FaultReason) {s : State}
    (h : UnitsLegal s.units) : UnitsLegal (enterFaulted l why s).units := by
  refine unitsLegal_endRunPending l .lineFault ?_
  rw [units_raiseLineNotice, State.units_updLine rfl]
  exact unitsLegal_fixOutcome l _ h

theorem unitsLegal_fixContention (l : Line) {s : State} (h : UnitsLegal s.units) :
    UnitsLegal (fixContention l s).units := by
  unfold fixContention
  dsimp only
  split <;> simp [h]

@[simp] theorem units_pollTransmitted (c : Carried) (s : State) :
    (pollTransmitted c s).units = s.units := by
  unfold pollTransmitted; split <;> simp

theorem unitsLegal_endFrameSent (l : Line) (x : Exchange) {s : State} (h : UnitsLegal s.units) :
    UnitsLegal (endFrameSent l x s).units := by
  cases hx : x.frame.isSendAll with
  | true => rw [endFrameSent_sendAll l s hx]; exact unitsLegal_fixOutcome l _ h
  | false => rw [endFrameSent_window l s hx]; simpa [openWindow] using h

theorem unitsLegal_sendFrame (l : Line) {s : State} (h : UnitsLegal s.units) :
    UnitsLegal (sendFrame l s).units := by
  unfold sendFrame
  split
  · split
    · exact unitsLegal_endFrameSent l _ h
    · split
      · simpa using h
      · exact h
  · exact h

theorem unitsLegal_echoCharacter (l : Line) (x : Exchange) (echoed : Nat) (c : ReceivedCharacter)
    {s : State} (h : UnitsLegal s.units) : UnitsLegal (echoCharacter l x echoed c s).units := by
  unfold echoCharacter
  split
  · dsimp only
    split
    · split
      · simpa using h
      · exact unitsLegal_sendFrame l (by simpa using h)
    · split
      · simpa using h
      · exact unitsLegal_fixContention l h
  · exact h

theorem unitsLegal_collectCharacter (l : Line) (x : Exchange) (got : List Byte)
    (c : ReceivedCharacter)
    {s : State} (h : UnitsLegal s.units) : UnitsLegal (collectCharacter l x got c s).units := by
  unfold collectCharacter
  dsimp only
  split
  · exact unitsLegal_fixOutcome l _ h
  · split
    · exact unitsLegal_fixOutcome l _ h
    · split
      · exact unitsLegal_fixOutcome l _ h
      · simpa using h

theorem unitsLegal_headCharacter (l : Line) (x : Exchange) (window : Timer) (c : ReceivedCharacter)
    {s : State} (h : UnitsLegal s.units) : UnitsLegal (headCharacter l x window c s).units := by
  unfold headCharacter
  split
  · split
    · simpa using h
    · split
      · exact unitsLegal_fixOutcome l _ h
      · exact h
  · exact unitsLegal_fixOutcome l _ h
  · exact unitsLegal_fixOutcome l _ h

theorem unitsLegal_engineCharacter (l : Line) (c : ReceivedCharacter) {s : State}
    (h : UnitsLegal s.units) : UnitsLegal (engineCharacter l c s).units := by
  unfold engineCharacter
  split
  · exact h
  · split
    · exact h
    · exact unitsLegal_echoCharacter l _ _ c h
  · exact unitsLegal_headCharacter l _ _ c h
  · exact unitsLegal_collectCharacter l _ _ c h
  · exact h

theorem unitsLegal_receiveCharacter (l : Line) (bits : Samples 10) {s : State}
    (h : UnitsLegal s.units) : UnitsLegal (receiveCharacter l bits s).units := by
  cases hc : (s.line l).receiver.state.inCharacter with
  | false => rwa [receiveCharacter_search bits hc]
  | true =>
    rw [receiveCharacter_inCharacter bits hc]
    refine unitsLegal_engineCharacter l _ ?_
    rwa [countCharacter, State.units_updLine rfl]

theorem unitsLegal_completeReply (l : Line) (bits : Samples 10) {s : State}
    (h : UnitsLegal s.units) :
    UnitsLegal (completeReply l bits s).units := by
  unfold completeReply
  split
  · split
    · exact unitsLegal_receiveCharacter l bits h
    · exact h
  · exact h

theorem unitsLegal_contend (l : Line) {s : State} (h : UnitsLegal s.units) :
    UnitsLegal (contend l s).units := by
  unfold contend
  split
  · exact unitsLegal_fixContention l h
  · exact h

theorem unitsLegal_expireWindow (l : Line) {s : State} (h : UnitsLegal s.units) :
    UnitsLegal (expireWindow l s).units := by
  unfold expireWindow
  dsimp only
  split
  · split
    · simpa using h
    · exact unitsLegal_fixOutcome l _ h
  · exact h

theorem unitsLegal_exceedGap (l : Line) {s : State} (h : UnitsLegal s.units) :
    UnitsLegal (exceedGap l s).units := by
  unfold exceedGap
  split
  · exact unitsLegal_fixOutcome l _ h
  · exact h

theorem unitsLegal_completeStop (l : Line) {s : State} (h : UnitsLegal s.units) :
    UnitsLegal (completeStop l s).units := by
  have hdown : UnitsLegal (raiseLineNotice l (s.updLine l LineBlock.goDown)).units := by
    rwa [units_raiseLineNotice, State.units_updLine rfl]
  unfold completeStop
  dsimp only
  split
  · exact unitsLegal_endRun l _ hdown
  · exact unitsLegal_endRunPending l _ hdown

theorem unitsLegal_expireGuard (l : Line) {s : State} (h : UnitsLegal s.units) :
    UnitsLegal (expireGuard l s).units := by
  unfold expireGuard
  split
  · rename_i x _ _ _
    have hended : UnitsLegal (finishExchange l x.carried s).units := by simpa using h
    dsimp only
    split
    · rw [units_choose]
      exact unitsLegal_exchangeEnded l _ _ hended
    · exact unitsLegal_completeStop l hended
    · exact hended
  · exact h

@[simp] theorem units_expireDeadline (r : RecordIndex) (s : State) :
    (expireDeadline r s).units = s.units := by
  unfold expireDeadline
  dsimp only
  split <;> simp

@[simp] theorem units_elapseFloor (l : Line) (s : State) : (elapseFloor l s).units = s.units := by
  unfold elapseFloor; split <;> simp

/-! ### A line's receiver and guard -/

theorem LineBlock.discovery_fromStart {f : LineBlock → LineBlock} {b : LineBlock}
    (h : (f b).discovery = b.discovery) : (b.fromStart f).discovery = b.discovery := by
  unfold fromStart
  split
  · exact h
  · rfl

@[simp] theorem units_verifyStart (l : Line) (noisy : Bool) (s : State) :
    (verifyStart l noisy s).units = s.units :=
  State.units_updLine (LineBlock.discovery_fromStart rfl)

@[simp] theorem units_rejectStart (l : Line) (s : State) : (rejectStart l s).units = s.units :=
  State.units_updLine (LineBlock.discovery_fromStart rfl)

@[simp] theorem units_armReceiver (l : Line) (s : State) : (armReceiver l s).units = s.units := by
  apply State.units_updLine
  split <;> rfl

@[simp] theorem units_endWakeBreak (l : Line) (s : State) :
    (endWakeBreak l s).units = s.units := by
  apply State.units_updLine
  split <;> rfl

@[simp] theorem units_completeQuiet (l : Line) (s : State) :
    (completeQuiet l s).units = s.units := by
  unfold completeQuiet
  dsimp only
  split
  · rw [units_choose, units_raiseLineNotice, State.units_updLine rfl]
  · rfl

@[simp] theorem units_completeRecoveryWatch (l : Line) (s : State) :
    (completeRecoveryWatch l s).units = s.units := by
  unfold completeRecoveryWatch
  dsimp only
  split
  · rw [units_raiseLineNotice, State.units_updLine rfl]
  · rfl

theorem unitsLegal_spoilQuiet (l : Line) {s : State} (h : UnitsLegal s.units) :
    UnitsLegal (spoilQuiet l s).units := by
  unfold spoilQuiet
  dsimp only
  split <;> simp [h]

theorem unitsLegal_stickDominant (l : Line) {s : State} (h : UnitsLegal s.units) :
    UnitsLegal (stickDominant l s).units := by
  unfold stickDominant
  dsimp only
  split <;> simp [h]

theorem unitsLegal_spoilRecoveryWatch (l : Line) {s : State} (h : UnitsLegal s.units) :
    UnitsLegal (spoilRecoveryWatch l s).units := by
  unfold spoilRecoveryWatch
  dsimp only
  split <;> simp [h]

theorem unitsLegal_beginRecovery (l : Line) {s : State} (h : UnitsLegal s.units) :
    UnitsLegal (beginRecovery l s).units := by
  have hwatch : UnitsLegal (raiseLineNotice l (s.updLine l LineBlock.enterRecovering)).units := by
    rwa [units_raiseLineNotice, State.units_updLine rfl]
  unfold beginRecovery
  dsimp only
  split
  · exact unitsLegal_enterFaulted l _ hwatch
  · exact hwatch

@[simp] theorem units_finishStop (l : Line) (s : State) : (finishStop l s).units = s.units := by
  rw [finishStop, units_raiseLineNotice, units_completeQueued, State.units_updLine rfl]

theorem unitsLegal_expireHold (l : Line) {s : State} (h : UnitsLegal s.units) :
    UnitsLegal (expireHold l s).units := by
  unfold expireHold
  dsimp only
  split
  · split
    · simpa using h
    · exact unitsLegal_beginRecovery l (by simpa using h)
  · exact h

end Sys2Proof.Machine

/-! What requests, messages and resets do to the discovery records, and the invariant of every step. -/

namespace Sys2Proof.Machine

/-! ### Requests: the fields of a body -/

theorem unitsLegal_withLine (body : List Byte) {s : State} {f : Line → Answer}
    (h : UnitsLegal s.units) (hf : ∀ l, UnitsLegal (f l).1.units) :
    UnitsLegal (withLine body s f).1.units := by
  unfold withLine
  split
  · split
    · exact hf _
    · exact h
  · exact h

theorem unitsLegal_withHandle (body : List Byte) {s : State} {f : Handle → Answer}
    (h : UnitsLegal s.units) (hf : ∀ x, UnitsLegal (f x).1.units) :
    UnitsLegal (withHandle body s f).1.units := by
  unfold withHandle
  split
  · split
    · exact hf _
    · exact h
  · exact h

theorem unitsLegal_withTag (body : List Byte) {s : State} {f : RecordIndex → Answer}
    (h : UnitsLegal s.units) (hf : ∀ r, UnitsLegal (f r).1.units) :
    UnitsLegal (withTag body s f).1.units := by
  unfold withTag
  split
  · split
    · exact hf _
    · exact h
  · exact h

theorem unitsLegal_withNothing (body : List Byte) {s : State} {a : Answer}
    (h : UnitsLegal s.units) (ha : UnitsLegal a.1.units) :
    UnitsLegal (withNothing body s a).1.units := by
  unfold withNothing
  split
  · exact ha
  · exact h

@[simp] theorem refuse_fst (st : Status) (s : State) : (refuse st s).1 = s := rfl

@[simp] theorem accept_fst (s : State) (body : List Byte) : (accept s body).1 = s := rfl

/-! ### Requests on the part, its lines and its nodes -/

theorem unitsLegal_requestIdentify (body : List Byte) {s : State} (h : UnitsLegal s.units) :
    UnitsLegal (requestIdentify body s).1.units := unitsLegal_withNothing body h h

theorem unitsLegal_requestCredit (body : List Byte) {s : State} (h : UnitsLegal s.units) :
    UnitsLegal (requestCredit body s).1.units := by
  unfold requestCredit
  split
  · split
    · exact h
    · split
      · exact h
      · simpa using h
  · exact h

theorem unitsLegal_requestResetPart (body : List Byte) {s : State} (h : UnitsLegal s.units) :
    UnitsLegal (requestResetPart body s).1.units := unitsLegal_withNothing body h (by simpa using h)

theorem unitsLegal_requestConfigureLine (body : List Byte) {s : State} (h : UnitsLegal s.units) :
    UnitsLegal (requestConfigureLine body s).1.units := by
  unfold requestConfigureLine
  split
  · split
    · exact h
    · dsimp only
      split
      · exact h
      · split
        · rwa [accept_fst, State.units_updLine rfl]
        · exact h
  · exact h

theorem unitsLegal_requestQueryLine (body : List Byte) {s : State} (h : UnitsLegal s.units) :
    UnitsLegal (requestQueryLine body s).1.units := by
  unfold requestQueryLine
  split
  · split
    · rw [accept_fst]
      split <;> simpa using h
    · exact h
  · exact h

@[simp] theorem units_resetEntries (l : Line) (s : State) :
    (resetEntries l s).1.units = s.units :=
  State.units_foldl (fun t i => State.units_setNode t i _) _ s

theorem unitsLegal_requestStartLine (body : List Byte) {s : State} (h : UnitsLegal s.units) :
    UnitsLegal (requestStartLine body s).1.units := by
  refine unitsLegal_withLine body h fun l => ?_
  split
  · exact h
  · rwa [accept_fst, units_resetEntries, State.units_updLine rfl]

@[simp] theorem units_abortQueued (l : Line) (s : State) :
    (abortQueued l s).1.units = s.units := units_completeQueued ..

/-- A stop that becomes pending is set only on an active run (R114). -/
theorem unitsLegal_stopRun (l : Line) {s : State} (h : UnitsLegal s.units) :
    UnitsLegal (stopRun l s).units := by
  unfold stopRun
  dsimp only
  split
  · refine h.updDiscovery l ?_
    split
    · rename_i hb
      exact (h l).of_active (Bool.and_eq_true_iff.1 hb).1 rfl
    · exact h l
  · exact unitsLegal_endRunPending l _ h

theorem unitsLegal_stopRunning (l : Line) {s : State} (h : UnitsLegal s.units) :
    UnitsLegal (stopRunning l s).1.units := by
  refine unitsLegal_stopRun l ?_
  rwa [units_abortQueued, State.units_updLine rfl]

theorem unitsLegal_stopAtOnce (l : Line) {s : State} (h : UnitsLegal s.units) :
    UnitsLegal (stopAtOnce l s).1.units := by
  refine unitsLegal_endRunPending l _ ?_
  rwa [units_abortQueued, State.units_updLine rfl, units_cutGuard]

theorem unitsLegal_requestStopLine (body : List Byte) {s : State} (h : UnitsLegal s.units) :
    UnitsLegal (requestStopLine body s).1.units := by
  refine unitsLegal_withLine body h fun l => ?_
  dsimp only
  split
  · exact h
  · exact h
  · split
    · exact unitsLegal_stopAtOnce l h
    · exact unitsLegal_stopRunning l h
  · exact unitsLegal_stopAtOnce l h

theorem unitsLegal_abortExchange (l : Line) {s : State} (h : UnitsLegal s.units) :
    UnitsLegal (abortExchange l s).1.units := by
  unfold abortExchange
  split
  · exact unitsLegal_fixOutcome l _ (by simpa using h)
  · simpa using h

theorem unitsLegal_requestResetLine (body : List Byte) {s : State} (h : UnitsLegal s.units) :
    UnitsLegal (requestResetLine body s).1.units := by
  refine unitsLegal_withLine body h fun l => unitsLegal_endRunPending l _ ?_
  rw [State.units_updLine rfl, units_abortQueued]
  exact unitsLegal_abortExchange l h

theorem unitsLegal_addNode (line address pollClass : Byte) (x : Option Identity) {s : State}
    (h : UnitsLegal s.units) : UnitsLegal (addNode line address pollClass x s).1.units := by
  unfold addNode
  split
  · split
    · exact h
    · split
      · exact h
      · split
        · exact h
        · split
          · exact h
          · simpa using h
  · exact h

theorem unitsLegal_requestAddNode (body : List Byte) {s : State} (h : UnitsLegal s.units) :
    UnitsLegal (requestAddNode body s).1.units := by
  unfold requestAddNode
  split
  · exact unitsLegal_addNode _ _ _ _ h
  · exact unitsLegal_addNode _ _ _ _ h
  · exact h

theorem unitsLegal_requestRemoveNode (body : List Byte) {s : State} (h : UnitsLegal s.units) :
    UnitsLegal (requestRemoveNode body s).1.units := by
  refine unitsLegal_withHandle body h fun x => ?_
  simpa [completeAimedAt] using h

theorem unitsLegal_requestSetNode (body : List Byte) {s : State} (h : UnitsLegal s.units) :
    UnitsLegal (requestSetNode body s).1.units := by
  unfold requestSetNode
  split
  · split
    · split
      · exact h
      · split
        · exact h
        · dsimp only
          split
          · exact h
          · simpa using h
    · exact h
  · exact h

theorem unitsLegal_requestQueryNode (body : List Byte) {s : State} (h : UnitsLegal s.units) :
    UnitsLegal (requestQueryNode body s).1.units := unitsLegal_withHandle body h fun _ => h

theorem unitsLegal_requestListNodes (body : List Byte) {s : State} (h : UnitsLegal s.units) :
    UnitsLegal (requestListNodes body s).1.units := unitsLegal_withLine body h fun _ => h

/-! ### Requests on transfers and discovery -/

theorem unitsLegal_submit (x : SubmitFields) {s : State} (h : UnitsLegal s.units) :
    UnitsLegal (submit x s).1.units := by
  unfold submit
  split
  · exact h
  · exact h
  · split
    · exact h
    · split
      · exact h
      · split
        · exact h
        · simpa [acceptSubmit] using h

theorem unitsLegal_requestSubmit (body : List Byte) {s : State} (h : UnitsLegal s.units) :
    UnitsLegal (requestSubmit body s).1.units := by
  unfold requestSubmit
  split
  · split
    · exact h
    · split
      · exact h
      · exact unitsLegal_submit _ h
  · exact h

theorem unitsLegal_requestCancel (body : List Byte) {s : State} (h : UnitsLegal s.units) :
    UnitsLegal (requestCancel body s).1.units := by
  refine unitsLegal_withTag body h fun r => ?_
  split
  · simpa using h
  · exact h
  · exact h

theorem unitsLegal_requestQueryTransfer (body : List Byte) {s : State} (h : UnitsLegal s.units) :
    UnitsLegal (requestQueryTransfer body s).1.units := unitsLegal_withTag body h fun _ => h

theorem unitsLegal_requestDiscover (body : List Byte) {s : State} (h : UnitsLegal s.units) :
    UnitsLegal (requestDiscover body s).1.units := by
  refine unitsLegal_withLine body h fun l => ?_
  dsimp only
  split
  · exact h
  · split
    · exact h
    · rw [accept_fst, units_choose]
      exact h.updDiscovery l (Discovery.legal_started _)

/-- A stop that becomes pending is set only on an active run (R113). -/
theorem unitsLegal_requestStopDiscovery (body : List Byte) {s : State} (h : UnitsLegal s.units) :
    UnitsLegal (requestStopDiscovery body s).1.units := by
  refine unitsLegal_withLine body h fun l => ?_
  dsimp only
  split
  · exact h
  · rename_i hb
    have ha : (s.units l).active = true := by
      simp only [Bool.or_eq_true, not_or, Bool.not_eq_true, Bool.not_eq_false'] at hb
      exact hb.1
    split
    · exact h.updDiscovery l ((h l).of_active ha rfl)
    · exact unitsLegal_endRun l _ h

/-! ### The inbox (R161, R162) -/

theorem unitsLegal_answerTo (kind : Byte) (body : List Byte) {s : State} (h : UnitsLegal s.units) :
    UnitsLegal (answerTo kind body s).1.units := by
  unfold answerTo
  split
  · exact unitsLegal_requestIdentify body h
  · exact unitsLegal_requestConfigureLine body h
  · exact unitsLegal_requestQueryLine body h
  · exact unitsLegal_requestStartLine body h
  · exact unitsLegal_requestStopLine body h
  · exact unitsLegal_requestResetLine body h
  · exact unitsLegal_requestAddNode body h
  · exact unitsLegal_requestRemoveNode body h
  · exact unitsLegal_requestSetNode body h
  · exact unitsLegal_requestQueryNode body h
  · exact unitsLegal_requestListNodes body h
  · exact unitsLegal_requestSubmit body h
  · exact unitsLegal_requestCancel body h
  · exact unitsLegal_requestQueryTransfer body h
  · exact unitsLegal_requestDiscover body h
  · exact unitsLegal_requestStopDiscovery body h
  · exact unitsLegal_requestCredit body h
  · exact unitsLegal_requestResetPart body h
  · exact h

theorem unitsLegal_offer (kind seq : Byte) {body : List Byte} {take : List Byte → State → Answer}
    {s : State} (h : UnitsLegal s.units) (ht : UnitsLegal (take body s).1.units) :
    UnitsLegal (offer kind seq body take s).units := by
  unfold offer
  split
  · split
    · simpa [joinInbox] using h
    · simpa [joinInbox] using ht
  · simpa [overrunInbox] using h

/-! ### Bytes on HRX (R157 to R160) -/

@[simp] theorem units_searchStart (s : State) : (searchStart s).units = s.units := by
  simp [searchStart]

@[simp] theorem units_abandonFrame (s : State) : (abandonFrame s).units = s.units := by
  simp [abandonFrame, dropFrame]

@[simp] theorem units_continueFrame (p : Parser) (s : State) :
    (continueFrame p s).units = s.units := by simp [continueFrame]

theorem unitsLegal_judgeFrame (f : InFrame) (check : Word16) {s : State} (h : UnitsLegal s.units) :
    UnitsLegal (judgeFrame f check s).units := by
  unfold judgeFrame
  split
  · split
    · exact unitsLegal_offer _ _ h (unitsLegal_answerTo _ _ h)
    · exact h
  · simpa using h

theorem unitsLegal_takeByte (b : Byte) {s : State} (h : UnitsLegal s.units) :
    UnitsLegal (takeByte b s).units := by
  unfold takeByte
  split
  · split <;> simpa using h
  · split <;> simpa using h
  · simpa using h
  · simpa using h
  · exact unitsLegal_judgeFrame _ _ (by simpa [dropFrame] using h)

theorem unitsLegal_receiveByte (byte : Samples 10) {s : State} (h : UnitsLegal s.units) :
    UnitsLegal (receiveByte byte s).units := by
  by_cases hr : s.link.receiver = .stopLow
  · rwa [receiveByte_stopLow byte hr]
  · rw [receiveByte_decides byte hr, decideByte]
    split
    · simpa using h
    · split
      · exact unitsLegal_takeByte _ (by simpa using h)
      · simpa [watchStop] using h

theorem unitsLegal_endFrame (check : Samples 10) {s : State} (h : UnitsLegal s.units) :
    UnitsLegal (endFrame check s).units := by
  unfold endFrame
  split
  · exact unitsLegal_receiveByte check h
  · exact h

theorem unitsLegal_rejectLength (length : Samples 10) {s : State} (h : UnitsLegal s.units) :
    UnitsLegal (rejectLength length s).units := by
  unfold rejectLength
  split
  · split
    · exact unitsLegal_receiveByte length h
    · exact h
  · exact h

@[simp] theorem units_failByte (s : State) : (failByte s).units = s.units := by
  unfold failByte; split <;> simp

@[simp] theorem units_expireHostGap (s : State) : (expireHostGap s).units = s.units := by
  unfold expireHostGap; split <;> simp

@[simp] theorem units_takeBreak (s : State) : (takeBreak s).units = s.units := by
  simp [takeBreak, dropFrame]

@[simp] theorem units_verifyHostStart (s : State) : (verifyHostStart s).units = s.units := by
  unfold verifyHostStart; split <;> simp

/-! ### The outbound arbiter, the ends of messages and the resets (R148, R163, R166, R187) -/

theorem unitsLegal_sourceBegins (src : Source) {s : State} (h : UnitsLegal s.units) :
    UnitsLegal (sourceBegins src s).units := by
  cases src with
  | completion r => exact h
  | node i => simpa [sourceBegins] using h
  | data k => simpa [sourceBegins] using h
  | line l => simpa [sourceBegins] using h
  | discovery l => exact h.updDiscovery l ((h l).notice false)
  | link => simpa [sourceBegins] using h

theorem unitsLegal_arbitrate {s : State} (h : UnitsLegal s.units) :
    UnitsLegal (arbitrate s).units := by
  unfold arbitrate
  split
  · exact h
  · split
    · simpa using h
    · split
      · simpa using h
      · split
        · split
          · exact h
          · rename_i src rest _ _
            rw [beginReport, State.units_updLink]
            refine unitsLegal_sourceBegins src ?_
            change UnitsLegal (s.withReports rest).units
            simpa using h
        · exact h

theorem unitsLegal_blocksReset (straps : BitVec 2) (pin : ResetPin) (s : State) :
    UnitsLegal (blocksReset straps pin s).units := by
  intro l
  cases l <;> exact Discovery.legal_reset

theorem unitsLegal_endReset (cause : ResetCause) (straps : BitVec 2) (s : State) :
    UnitsLegal (endReset cause straps s).units := by
  rw [endReset, State.units_updLink]
  exact unitsLegal_blocksReset _ _ s

theorem unitsLegal_finishReply (straps : BitVec 2) {s : State} (h : UnitsLegal s.units) :
    UnitsLegal (finishReply straps s).units := by
  unfold finishReply
  split
  · split
    · exact unitsLegal_endReset _ _ s
    · simpa [freeEntry, idleTransmitter] using h
  · exact h

@[simp] theorem units_finishReport (s : State) : (finishReport s).units = s.units := by
  unfold finishReport
  split
  · rename_i src _ _
    cases src <;> simp [freeSource, idleTransmitter]
  · rfl

@[simp] theorem units_finishAnnounce (s : State) : (finishAnnounce s).units = s.units := by
  unfold finishAnnounce; split <;> simp [idleTransmitter]

/-! ### Every command and every step -/

theorem unitsLegal_of_outOfReset {f : State → State} {s t : State} (h : UnitsLegal s.units)
    (ht : outOfReset f s = .next t) (hf : UnitsLegal (f s).units) : UnitsLegal t.units := by
  cases hp : s.resetPin with
  | high => rw [outOfReset_high f hp] at ht; cases ht; exact hf
  | low b => rw [outOfReset_low f hp] at ht; cases ht; exact h

theorem unitsLegal_of_command {f : State → State} {s t : State} (h : UnitsLegal s.units)
    (ht : command f s = .next t) (hf : UnitsLegal (f s).units) : UnitsLegal t.units :=
  unitsLegal_of_outOfReset h ht (unitsLegal_arbitrate hf)

/-- A good frame of a kind, by what its request does (R161, R162). -/
theorem unitsLegal_of_request {kind seq : Byte} {body : List Byte}
    {take : List Byte → State → Answer} {s t : State} (h : UnitsLegal s.units)
    (ht : command (offer kind seq body take) s = .next t)
    (hr : UnitsLegal (take body s).1.units) : UnitsLegal t.units :=
  unitsLegal_of_command h ht (unitsLegal_offer kind seq h hr)

/-- A command that leaves the discovery records as they are. -/
theorem unitsLegal_of_command_kept {f : State → State} {s t : State} (h : UnitsLegal s.units)
    (ht : command f s = .next t) (hf : (f s).units = s.units) : UnitsLegal t.units :=
  unitsLegal_of_command h ht (hf ▸ h)

/-- An event outside the arbiter's reach that leaves the discovery records as they are. -/
theorem unitsLegal_of_outOfReset_kept {f : State → State} {s t : State} (h : UnitsLegal s.units)
    (ht : outOfReset f s = .next t) (hf : (f s).units = s.units) : UnitsLegal t.units :=
  unitsLegal_of_outOfReset h ht (hf ▸ h)

theorem unitsLegal_of_execLineLevelChange (l : Line) (level : Level) {s t : State}
    (h : UnitsLegal s.units) (ht : execLineLevelChange l level s = .next t) :
    UnitsLegal t.units := by
  unfold execLineLevelChange at ht
  split at ht <;> cases ht <;> rwa [State.units_updLine rfl]

theorem unitsLegal_of_execPowerOnReset (straps : BitVec 2) {s t : State}
    (ht : execPowerOnReset straps s = .next t) : UnitsLegal t.units := by
  unfold execPowerOnReset at ht
  split at ht <;> cases ht
  · exact unitsLegal_blocksReset _ _ s
  · exact unitsLegal_arbitrate (unitsLegal_endReset _ _ s)

theorem unitsLegal_of_execResetPinLow {s t : State} (h : UnitsLegal s.units)
    (ht : execResetPinLow s = .next t) : UnitsLegal t.units := by
  unfold execResetPinLow at ht
  split at ht <;> cases ht
  · exact h
  · exact unitsLegal_blocksReset _ _ s

theorem unitsLegal_of_execResetPinRelease (straps : BitVec 2) {s t : State} (h : UnitsLegal s.units)
    (ht : execResetPinRelease straps s = .next t) : UnitsLegal t.units := by
  unfold execResetPinRelease at ht
  split at ht <;> cases ht
  · exact unitsLegal_arbitrate (unitsLegal_endReset _ _ s)
  · exact h

theorem unitsLegal_of_exec (c : Instr) {s t : State} (h : UnitsLegal s.units)
    (ht : exec c s = .next t) : UnitsLegal t.units := by
  cases c with
  | identify seq body => exact unitsLegal_of_request h ht (unitsLegal_requestIdentify body h)
  | configureLine seq body =>
    exact unitsLegal_of_request h ht (unitsLegal_requestConfigureLine body h)
  | queryLine seq body => exact unitsLegal_of_request h ht (unitsLegal_requestQueryLine body h)
  | startLine seq body => exact unitsLegal_of_request h ht (unitsLegal_requestStartLine body h)
  | stopLine seq body => exact unitsLegal_of_request h ht (unitsLegal_requestStopLine body h)
  | resetLine seq body => exact unitsLegal_of_request h ht (unitsLegal_requestResetLine body h)
  | addNode seq body => exact unitsLegal_of_request h ht (unitsLegal_requestAddNode body h)
  | removeNode seq body => exact unitsLegal_of_request h ht (unitsLegal_requestRemoveNode body h)
  | setNode seq body => exact unitsLegal_of_request h ht (unitsLegal_requestSetNode body h)
  | queryNode seq body => exact unitsLegal_of_request h ht (unitsLegal_requestQueryNode body h)
  | listNodes seq body => exact unitsLegal_of_request h ht (unitsLegal_requestListNodes body h)
  | submit seq body => exact unitsLegal_of_request h ht (unitsLegal_requestSubmit body h)
  | cancel seq body => exact unitsLegal_of_request h ht (unitsLegal_requestCancel body h)
  | queryTransfer seq body =>
    exact unitsLegal_of_request h ht (unitsLegal_requestQueryTransfer body h)
  | discover seq body => exact unitsLegal_of_request h ht (unitsLegal_requestDiscover body h)
  | stopDiscovery seq body =>
    exact unitsLegal_of_request h ht (unitsLegal_requestStopDiscovery body h)
  | credit seq body => exact unitsLegal_of_request h ht (unitsLegal_requestCredit body h)
  | resetPart seq body => exact unitsLegal_of_request h ht (unitsLegal_requestResetPart body h)
  | unknownKind kind seq body => exact unitsLegal_of_request h ht (unitsLegal_answerTo kind body h)
  | hostFrameReceived check => exact unitsLegal_of_command h ht (unitsLegal_endFrame check h)
  | badFrameLength length => exact unitsLegal_of_command h ht (unitsLegal_rejectLength length h)
  | byteFramingError => exact unitsLegal_of_command_kept h ht (units_failByte s)
  | hostGapTimeout => exact unitsLegal_of_command_kept h ht (units_expireHostGap s)
  | hostBreak => exact unitsLegal_of_outOfReset_kept h ht (units_takeBreak s)
  | replySent straps => exact unitsLegal_of_command h ht (unitsLegal_finishReply straps h)
  | reportSent => exact unitsLegal_of_command_kept h ht (units_finishReport s)
  | announceSent => exact unitsLegal_of_command_kept h ht (units_finishAnnounce s)
  | powerOnReset straps => exact unitsLegal_of_execPowerOnReset straps ht
  | resetPinLow => exact unitsLegal_of_execResetPinLow h ht
  | resetPinRelease straps => exact unitsLegal_of_execResetPinRelease straps h ht
  | frameSent l => exact unitsLegal_of_command h ht (unitsLegal_sendFrame l h)
  | echoContention l => exact unitsLegal_of_command h ht (unitsLegal_contend l h)
  | lineCharacterReceived l bits =>
    exact unitsLegal_of_command h ht (unitsLegal_receiveCharacter l bits h)
  | falseStart l => exact unitsLegal_of_outOfReset_kept h ht (units_rejectStart l s)
  | replyComplete l bits => exact unitsLegal_of_command h ht (unitsLegal_completeReply l bits h)
  | replyWindowExpiry l => exact unitsLegal_of_command h ht (unitsLegal_expireWindow l h)
  | gapLimitExceeded l => exact unitsLegal_of_command h ht (unitsLegal_exceedGap l h)
  | guardExpiry l => exact unitsLegal_of_command h ht (unitsLegal_expireGuard l h)
  | deadlineExpiry record => exact unitsLegal_of_command_kept h ht (units_expireDeadline record s)
  | cycleFloorExpiry l => exact unitsLegal_of_command_kept h ht (units_elapseFloor l s)
  | wakeBreakEnd l => exact unitsLegal_of_command_kept h ht (units_endWakeBreak l s)
  | quietComplete l => exact unitsLegal_of_command_kept h ht (units_completeQuiet l s)
  | dominantInQuiet l => exact unitsLegal_of_command h ht (unitsLegal_spoilQuiet l h)
  | stuckDominant l => exact unitsLegal_of_command h ht (unitsLegal_stickDominant l h)
  | faultHoldExpiry l => exact unitsLegal_of_command h ht (unitsLegal_expireHold l h)
  | recoveryWatchComplete l =>
    exact unitsLegal_of_command_kept h ht (units_completeRecoveryWatch l s)
  | dominantInRecoveryWatch l =>
    exact unitsLegal_of_command h ht (unitsLegal_spoilRecoveryWatch l h)
  | hostByteReceived byte => exact unitsLegal_of_command h ht (unitsLegal_receiveByte byte h)
  | hostStartVerified => exact unitsLegal_of_outOfReset_kept h ht (units_verifyHostStart s)
  | startVerified l noisy => exact unitsLegal_of_outOfReset_kept h ht (units_verifyStart l noisy s)
  | receiverArmed l => exact unitsLegal_of_outOfReset_kept h ht (units_armReceiver l s)
  | lineLevelChange l level => exact unitsLegal_of_execLineLevelChange l level h ht

@[simp] theorem State.units_withPending (s : State) (queue : List Instr) :
    (s.withPending queue).units = s.units := by
  funext m; cases m <;> rfl

theorem unitsLegal_of_step {s t : State} (h : UnitsLegal s.units) (ht : step s = .next t) :
    UnitsLegal t.units := by
  unfold step at ht
  split at ht
  · cases ht; exact h
  · exact unitsLegal_of_exec _ (by simpa using h) ht

/-- Settles O8: every step keeps the shape of R106 on both lines, and the shape bounds a stack's
length, since the lengths under the top fall strictly from at most 32 to at least 1. -/
theorem rangeStackNeverPasses33 : Obligations.RangeStackNeverPasses33 := by
  refine ⟨fun s t h ht l => ?_, fun d top rest hs => ⟨fun hl => ?_, fun hl => ?_⟩⟩
  · obtain ⟨hstack, hrun⟩ : (t.units l).Legal := unitsLegal_of_step h ht l
    exact ⟨hstack, hrun, stackOk_length_le hstack⟩
  · rw [Discovery.collision_split hs hl]; rfl
  · rw [Discovery.collision_clash hs hl]

end Sys2Proof.Machine


/-! The requests that read the part, configure a line and change a node entry (R170, R173, R178, R180):
what each answers at each of its checks, and from it the command's outcome. -/

namespace Sys2Proof.Machine

/-! ### Fields of several bytes -/

theorem word16_le16 (x : Word16) : word16 (x.extractLsb' 0 8) (x.extractLsb' 8 8) = x :=
  BitVec.extractLsb'_append_extractLsb'

theorem le16_word16 (lo hi : Byte) : le16 (word16 lo hi) = [lo, hi] := by
  simp only [le16, word16, BitVec.extractLsb'_append_eq_left, BitVec.extractLsb'_append_eq_right]

/-- Neighbouring bytes join, from the most significant pair on, to the whole word. -/
theorem word32_le32 (x : Identity) :
    word32 (x.extractLsb' 0 8) (x.extractLsb' 8 8) (x.extractLsb' 16 8) (x.extractLsb' 24 8) = x := by
  simp only [word32, BitVec.extractLsb'_append_extractLsb'_eq_extractLsb',
    BitVec.extractLsb'_eq_self]

/-! ### IDENTIFY (R170) -/

theorem partData_eq : partData = [0x31, 0x5C, 0x64, 0x02, 1, 2, 64, 32, 16, 117, 4, 48, 33] := rfl

theorem requestIdentify_nil (s : State) :
    requestIdentify [] s = accept s (partData ++ [s.link.strapCode.zeroExtend 8]) := rfl

/-- Settles O24: IDENTIFY and ANNOUNCE both give `partData`, whose bytes are the constants. -/
theorem identifyGivesThePartsConstants : Obligations.IdentifyGivesThePartsConstants := by
  refine ⟨fun s seq hs => ?_, fun c => ?_⟩
  · have hreply := requestIdentify_nil s
    rw [partData_eq] at hreply
    exact command_offer_accepted 0x01 seq [] _ requestIdentify s s hs rfl hreply
  · show c.code :: partData = _
    rw [partData_eq]

/-! ### CONFIGURE_LINE (R173) -/

theorem within_iff (b : Byte) (low high : Nat) :
    within b low high = true ↔ low ≤ b.toNat ∧ b.toNat ≤ high := by
  simp [within]

/-- Table 7-4's ranges. An upper end of 255 holds of every byte, and assign low and high bound
each other. -/
theorem LineParams.inRange_iff (p : LineParams) :
    p.inRange = true ↔
      p.rateCode.toNat ≤ 7 ∧ 1 ≤ p.replyTimeout.toNat ∧
      (1 ≤ p.guardTime.toNat ∧ p.guardTime.toNat ≤ 15) ∧
      (1 ≤ p.gapLimit.toNat ∧ p.gapLimit.toNat ≤ 4) ∧
      (1 ≤ p.missLimit.toNat ∧ p.missLimit.toNat ≤ 15) ∧
      (1 ≤ p.interleave.toNat ∧ p.interleave.toNat ≤ 8) ∧ 1 ≤ p.faultHold.toNat ∧
      (1 ≤ p.assignLow.toNat ∧ p.assignLow.toNat ≤ p.assignHigh.toNat ∧
        p.assignHigh.toNat ≤ 125) := by
  have htimeout := p.replyTimeout.isLt
  have hhold := p.faultHold.isLt
  simp only [LineParams.inRange, Bool.and_eq_true, within_iff, decide_eq_true_eq]
  omega

theorem configureLine_body (rate timeout guard gap miss inter floor0 floor1 hold low high : Byte) :
    LineParams.bytes ⟨rate, timeout, guard, gap, miss, inter, word16 floor0 floor1, hold, low, high⟩ =
      [rate, timeout, guard, gap, miss, inter, floor0, floor1, hold, low, high] := by
  simp [LineParams.bytes, le16_word16]

theorem requestConfigureLine_badLine {b : Byte} (p : LineParams) (s : State)
    (hb : decodeLine b = none) :
    requestConfigureLine (b :: p.bytes) s = refuse .badValue s := by
  simp [requestConfigureLine, LineParams.bytes, le16, hb]

theorem requestConfigureLine_line (l : Line) (p : LineParams) (s : State) :
    requestConfigureLine (lineCode l :: p.bytes) s =
      if (s.line l).guard.lineState ≠ .down then refuse .wrongState s
      else if p.inRange then accept (s.setLine l ((s.line l).configure p)) []
      else refuse .badValue s := by
  simp [requestConfigureLine, LineParams.bytes, le16, decodeLine_lineCode, word16_le16,
    State.updLine_eq]

/-- Settles O27: the checks are the line's state, then Table 7-4. -/
theorem configureLineSetsTheParameters : Obligations.ConfigureLineSetsTheParameters := by
  intro s seq b rate timeout guard gap miss inter floor0 floor1 hold low high hs body good
  let p : LineParams :=
    ⟨rate, timeout, guard, gap, miss, inter, word16 floor0 floor1, hold, low, high⟩
  have hbody : body = b :: p.bytes := by rw [configureLine_body]
  have hgood : p.inRange = true ↔ good := p.inRange_iff
  clear_value body good
  subst hbody
  refine ⟨fun hb => ?_, ?_, ?_, ?_⟩
  · exact command_offer_refused 0x02 seq _ requestConfigureLine s .badValue hs rfl
      (requestConfigureLine_badLine p s (decodeLine_none hb))
  · rintro l rfl hstate
    refine command_offer_refused 0x02 seq _ requestConfigureLine s .wrongState hs rfl ?_
    rw [requestConfigureLine_line, if_pos hstate]
  · rintro l rfl hdown hbad
    refine command_offer_refused 0x02 seq _ requestConfigureLine s .badValue hs rfl ?_
    rw [requestConfigureLine_line, if_neg (not_not.2 hdown), if_neg (mt hgood.1 hbad)]
  · rintro l rfl hdown hok
    refine command_offer_accepted 0x02 seq _ [] requestConfigureLine s
      (s.setLine l ((s.line l).configure p)) hs rfl ?_
    rw [requestConfigureLine_line, if_neg (not_not.2 hdown), if_pos (hgood.2 hok)]

/-! ### ADD_NODE (R178) -/

theorem decodeClass_none {b : Byte} (h : 2 < b.toNat) : decodeClass b = none := by
  unfold decodeClass
  split <;> [omega; omega; omega; rfl]

theorem decodeAddress_none {b : Byte} (h : b.toNat = 0 ∨ 125 < b.toNat) : decodeAddress b = none := by
  unfold decodeAddress
  rw [if_neg]
  simp only [Bool.and_eq_true, decide_eq_true_eq]
  omega

theorem decodeAddress_zeroExtend {a : Address} (h : 1 ≤ a.toNat) (h' : a.toNat ≤ 125) :
    decodeAddress (a.zeroExtend 8) = some a := by
  have hsame : (a.zeroExtend 8).toNat = a.toNat := BitVec.toNat_setWidth_of_le (by decide)
  have hback : (a.zeroExtend 8).extractLsb' 0 7 = a := by
    rw [BitVec.zeroExtend, BitVec.extractLsb'_setWidth_of_le (by decide),
      BitVec.extractLsb'_eq_self]
  simp [decodeAddress, hsame, h, h', hback]

theorem NodeEntry.occupies_iff (e : NodeEntry) (l : Line) :
    e.occupies l = true ↔ e.line = l ∧ (e.state ≠ .free ∨ e.assignHold = true) := by
  simp [NodeEntry.occupies, NodeEntry.held]

theorem NodeEntry.allocatable_iff (e : NodeEntry) :
    e.allocatable = true ↔ e.state = .free ∧ e.noticePending = false ∧ e.assignHold = false := by
  simp [NodeEntry.allocatable, and_assoc]

/-- Some entry that counts as in use on the line has a property (R6, R7). -/
theorem any_occupies_iff (l : Line) (p : NodeEntry → Bool) (s : State) :
    (entryIndexes.any fun i => (s.node i).occupies l && p (s.node i)) = true ↔
      ∃ i : EntryIndex, (s.node i).line = l ∧ p (s.node i) = true ∧
        ((s.node i).state ≠ .free ∨ (s.node i).assignHold = true) := by
  simp only [entryIndexes, List.any_eq_true, List.mem_finRange, true_and, Bool.and_eq_true,
    NodeEntry.occupies_iff]
  exact exists_congr fun i => and_right_comm.trans and_assoc

theorem addressInUse_iff (l : Line) (a : Address) (s : State) :
    addressInUse l a s = true ↔ ∃ i : EntryIndex, (s.node i).line = l ∧ (s.node i).address = a ∧
      ((s.node i).state ≠ .free ∨ (s.node i).assignHold = true) :=
  (any_occupies_iff l (fun e => e.address == a) s).trans (by simp only [beq_iff_eq])

theorem identityInUse_iff (l : Line) (x : Identity) (s : State) :
    identityInUse l x s = true ↔ ∃ i : EntryIndex, (s.node i).line = l ∧
      (s.node i).identity = some x ∧ ((s.node i).state ≠ .free ∨ (s.node i).assignHold = true) :=
  (any_occupies_iff l (fun e => e.identity == some x) s).trans (by simp only [beq_iff_eq])

/-- The longer body's identity is in use on the line (R7). -/
theorem givenInUse_iff (l : Line) (given : Option Identity) (s : State) :
    (given.map fun x => identityInUse l x s).getD false = true ↔
      ∃ (i : EntryIndex) (x : Identity), given = some x ∧ (s.node i).line = l ∧
        (s.node i).identity = some x ∧
        ((s.node i).state ≠ .free ∨ (s.node i).assignHold = true) := by
  cases given with
  | none => simp
  | some x => simp [identityInUse_iff]

theorem firstAllocatable_eq_none {s : State} (h : ∀ i, ¬ (s.node i).allocatable = true) :
    firstAllocatable s = none :=
  find?_finRange_eq_none _ fun i => Bool.eq_false_iff.2 (h i)

theorem firstAllocatable_eq_some {s : State} {i : EntryIndex} (h : (s.node i).allocatable = true)
    (hlow : ∀ j, j < i → ¬ (s.node j).allocatable = true) : firstAllocatable s = some i :=
  find?_finRange_eq_some _ i h fun j hj => Bool.eq_false_iff.2 (hlow j hj)

theorem requestAddNode_body (line address cls : Byte) (given : Option Identity) (s : State) :
    requestAddNode ([line, address, cls] ++ (given.map le32).getD []) s =
      addNode line address cls given s := by
  cases given with
  | none => rfl
  | some x => simp [requestAddNode, le32, word32_le32]

theorem addNode_badCode {line cls : Byte} (address : Byte) (given : Option Identity) (s : State)
    (h : decodeLine line = none ∨ decodeClass cls = none) :
    addNode line address cls given s = refuse .badValue s := by
  rcases h with h | h
  · simp [addNode, h]
  · cases hl : decodeLine line <;> simp [addNode, h, hl]

section AddNode
variable {l : Line} {k : PollClass} {address : Byte} {a : Address} {given : Option Identity}
  {s : State}

theorem addNode_badAddress (ha : decodeAddress address = none) :
    addNode (lineCode l) address k.code given s = refuse .badAddress s := by
  simp [addNode, decodeLine_lineCode, decodeClass_code, ha]

theorem addNode_addressInUse (ha : decodeAddress address = some a)
    (huse : addressInUse l a s = true) :
    addNode (lineCode l) address k.code given s = refuse .addressInUse s := by
  simp [addNode, decodeLine_lineCode, decodeClass_code, ha, huse]

theorem addNode_identityInUse (ha : decodeAddress address = some a)
    (huse : addressInUse l a s ≠ true)
    (hknown : (given.map fun x => identityInUse l x s).getD false = true) :
    addNode (lineCode l) address k.code given s = refuse .badValue s := by
  simp [addNode, decodeLine_lineCode, decodeClass_code, ha, huse, hknown]

theorem addNode_tableFull (ha : decodeAddress address = some a) (huse : addressInUse l a s ≠ true)
    (hknown : (given.map fun x => identityInUse l x s).getD false ≠ true)
    (hfull : firstAllocatable s = none) :
    addNode (lineCode l) address k.code given s = refuse .tableFull s := by
  simp [addNode, decodeLine_lineCode, decodeClass_code, ha, huse, hknown, hfull]

theorem addNode_accepted {i : EntryIndex} (ha : decodeAddress address = some a)
    (huse : addressInUse l a s ≠ true)
    (hknown : (given.map fun x => identityInUse l x s).getD false ≠ true)
    (hi : firstAllocatable s = some i) :
    addNode (lineCode l) address k.code given s =
      accept (s.setNode i ((s.node i).added l a k given))
        (le16 (Handle.number ⟨i, (s.node i).generation + 1⟩)) := by
  simp [addNode, decodeLine_lineCode, decodeClass_code, ha, huse, hknown, hi, State.handleOf,
    NodeEntry.added]

end AddNode

/-- R5's fields: an allocatable entry has no notice pending, so the fill leaves none. -/
theorem NodeEntry.added_eq {e : NodeEntry} (h : e.noticePending = false) (l : Line) (a : Address)
    (k : PollClass) (given : Option Identity) :
    e.added l a k given = ⟨e.generation + 1, .pending, l, a, given, k, 0, false, true, true, false,
      false, false, false, 0, .added, 0, 0⟩ := by
  rw [NodeEntry.added, h]

/-- Settles O34: each check of R178 is a lookup that the model's scan of the 64 entries decides. -/
theorem addNodeFillsTheLowestEntry : Obligations.AddNodeFillsTheLowestEntry := by
  intro s seq line address cls given hs body c refused
  have refused_of {st : Status} (h : addNode line address cls given s = refuse st s) :
      refused st.code :=
    command_offer_refused 0x07 seq body requestAddNode s st hs rfl
      ((requestAddNode_body ..).trans h)
  refine ⟨fun hbad => refused_of (addNode_badCode _ _ _ (hbad.imp decodeLine_none decodeClass_none)),
    ?_⟩
  rintro l k rfl rfl
  refine ⟨fun hbad => refused_of (addNode_badAddress (decodeAddress_none hbad)), ?_⟩
  rintro a rfl hlow hhigh
  have ha := decodeAddress_zeroExtend hlow hhigh
  simp only [← addressInUse_iff, ← givenInUse_iff, ← NodeEntry.allocatable_iff]
  refine ⟨fun huse => refused_of (addNode_addressInUse ha huse),
    fun huse hknown => refused_of (addNode_identityInUse ha huse hknown),
    fun huse hknown hfull =>
      refused_of (addNode_tableFull ha huse hknown (firstAllocatable_eq_none hfull)),
    fun huse hknown i hi hfirst => ?_⟩
  have hadd := addNode_accepted (k := k) ha huse hknown (firstAllocatable_eq_some hi hfirst)
  obtain ⟨-, hnotice, -⟩ := (NodeEntry.allocatable_iff _).1 hi
  rw [NodeEntry.added_eq hnotice] at hadd
  exact command_offer_accepted 0x07 seq body _ requestAddNode s _ hs rfl
    ((requestAddNode_body ..).trans hadd)

/-! ### SET_NODE (R180) -/

theorem decodeAction_none {b : Byte} (h : 2 < b.toNat) : decodeAction b = none := by
  unfold decodeAction
  split <;> [omega; omega; omega; rfl]

theorem decodeClassChange_none {b : Byte} (h : 2 < b.toNat) (h' : b ≠ 0xFF) :
    decodeClassChange b = none := by
  rw [decodeClassChange, if_neg h', decodeClass_none h, Option.map_none]

theorem byte_eq_of_toNat_le_two {b : Byte} (h : b.toNat ≤ 2) : b = 0 ∨ b = 1 ∨ b = 2 := by
  bv_omega

/-- A defined class field names the class it leaves; only 0xFF leaves the entry's own `k`. -/
theorem decodeClassChange_some {b : Byte} (h : b.toNat ≤ 2 ∨ b = 0xFF) :
    ∃ c, decodeClassChange b = some c ∧ (c = none ↔ b = 0xFF) ∧
      ∀ k : PollClass, c.getD k =
        if b = 0 then .fast else if b = 1 then .steady else if b = 2 then .slow else k := by
  rcases h with h | rfl
  · rcases byte_eq_of_toNat_le_two h with rfl | rfl | rfl
    · exact ⟨some .fast, rfl, by simp, fun _ => rfl⟩
    · exact ⟨some .steady, rfl, by simp, fun _ => rfl⟩
    · exact ⟨some .slow, rfl, by simp, fun _ => rfl⟩
  · exact ⟨none, rfl, by simp, fun _ => rfl⟩

theorem decodeAction_some {b : Byte} (h : b.toNat ≤ 2) :
    ∃ a, decodeAction b = some a ∧ (a = .none ↔ b = 0) := by
  rcases byte_eq_of_toNat_le_two h with rfl | rfl | rfl
  · exact ⟨.none, rfl, by simp⟩
  · exact ⟨.park, rfl, by simp⟩
  · exact ⟨.unpark, rfl, by simp⟩

section SetNode
variable {b0 b1 cls action : Byte} {c : Option PollClass} {a : NodeAction} {h : Handle} {s : State}

theorem requestSetNode_badCode (hbad : decodeClassChange cls = none ∨ decodeAction action = none) :
    requestSetNode [b0, b1, cls, action] s = refuse .badValue s := by
  rcases hbad with hc | ha
  · simp [requestSetNode, hc]
  · cases hc : decodeClassChange cls <;> simp [requestSetNode, hc, ha]

theorem requestSetNode_noChange (hc : decodeClassChange cls = some none)
    (ha : decodeAction action = some .none) :
    requestSetNode [b0, b1, cls, action] s = refuse .badValue s := by
  simp [requestSetNode, hc, ha]

variable (hc : decodeClassChange cls = some c) (ha : decodeAction action = some a)
  (hchange : ¬ (c = none ∧ a = .none))
include hc ha hchange

theorem requestSetNode_stale (hh : lookupHandle (word16 b0 b1) s = none) :
    requestSetNode [b0, b1, cls, action] s = refuse .staleHandle s := by
  simp [requestSetNode, hc, ha, hchange, hh]

theorem requestSetNode_wrongState (hh : lookupHandle (word16 b0 b1) s = some h)
    (hwrong : a.wrongFor (s.node h.index) = true) :
    requestSetNode [b0, b1, cls, action] s = refuse .wrongState s := by
  simp [requestSetNode, hc, ha, hchange, hh, hwrong]

theorem requestSetNode_accepted (hh : lookupHandle (word16 b0 b1) s = some h)
    (hright : a.wrongFor (s.node h.index) = false) :
    requestSetNode [b0, b1, cls, action] s =
      let e1 := (s.node h.index).setNode c a
      accept (s.setNode h.index e1) [e1.state.code, e1.pollClass.code] := by
  simp [requestSetNode, hc, ha, hchange, hh, hright]

end SetNode

theorem NodeAction.park_wrongFor_iff (e : NodeEntry) :
    NodeAction.park.wrongFor e = true ↔ e.state = .parked := by
  simp [NodeAction.wrongFor]

theorem NodeAction.unpark_wrongFor_iff (e : NodeEntry) :
    NodeAction.unpark.wrongFor e = true ↔ e.state ≠ .parked := by
  simp [NodeAction.wrongFor]

/-- Settles O36: with good codes the handle decides, then the entry's state, and the entry's change is
`NodeEntry.setNode`. -/
theorem setNodeChangesClassAndParks : Obligations.SetNodeChangesClassAndParks := by
  intro s seq b0 b1 cls action hs body refused
  have refused_of {st : Status} (h : requestSetNode body s = refuse st s) : refused st.code :=
    command_offer_refused 0x09 seq body requestSetNode s st hs rfl h
  refine ⟨?_, fun hcls haction hchange => ?_⟩
  · rintro (⟨hcls, hkeep⟩ | haction | ⟨rfl, rfl⟩)
    · exact refused_of (requestSetNode_badCode (.inl (decodeClassChange_none hcls hkeep)))
    · exact refused_of (requestSetNode_badCode (.inr (decodeAction_none haction)))
    · exact refused_of (requestSetNode_noChange rfl rfl)
  obtain ⟨c, hc, hkeep, hclass⟩ := decodeClassChange_some hcls
  obtain ⟨a, ha, hnone⟩ := decodeAction_some haction
  rw [← hkeep, ← hnone] at hchange
  refine ⟨fun hstale => refused_of (requestSetNode_stale hc ha hchange (lookupHandle_none hstale)),
    ?_⟩
  intro h hdecode hcurrent e k set
  have hh := lookupHandle_some hdecode hcurrent
  have wrong_of (hwrong : a.wrongFor e = true) : refused 5 :=
    refused_of (requestSetNode_wrongState hc ha hchange hh hwrong)
  have set_of (hright : a.wrongFor e = false) : set (e.setNode c a) :=
    command_offer_accepted 0x09 seq body _ requestSetNode s _ hs rfl
      (requestSetNode_accepted hc ha hchange hh hright)
  have hk : c.getD e.pollClass = k := hclass e.pollClass
  rw [← hk]
  refine ⟨?_, ?_, ?_, ?_, ?_⟩
  · rintro rfl
    obtain rfl : NodeAction.none = a := Option.some.inj ha
    exact set_of rfl
  · rintro rfl hparked
    obtain rfl : NodeAction.park = a := Option.some.inj ha
    exact wrong_of ((NodeAction.park_wrongFor_iff e).2 hparked)
  · rintro rfl hactive
    obtain rfl : NodeAction.park = a := Option.some.inj ha
    exact set_of (Bool.eq_false_iff.2 (mt (NodeAction.park_wrongFor_iff e).1 hactive))
  · rintro rfl hactive
    obtain rfl : NodeAction.unpark = a := Option.some.inj ha
    exact wrong_of ((NodeAction.unpark_wrongFor_iff e).2 hactive)
  · rintro rfl hparked
    obtain rfl : NodeAction.unpark = a := Option.some.inj ha
    exact set_of (Bool.eq_false_iff.2 (mt (NodeAction.unpark_wrongFor_iff e).1 (not_not.2 hparked)))

end Sys2Proof.Machine

/-! What a command can do to the tables, the two lines' queues, the report queue and the host link, as a
chain of small moves: said once, so that what every move keeps is kept by every step. -/

namespace Sys2Proof.Machine

/-! ### A state whose owners may still have to be told an outcome -/

/-- What the exchange of an engine carries while its outcome is not fixed (R72, R81). -/
def LineBlock.untold (b : LineBlock) : Option Carried := b.engine.unfixed.map Exchange.carried

/-- Each line's exchange that waits for its outcome. -/
def State.untold (s : State) (l : Line) : Option Carried := (s.line l).untold

/-- The part, with the exchange of each line whose owners have not been told its outcome: as an outcome
is fixed the engine leaves the exchange first and the owners are told after it (R81, R82). -/
structure Config where
  state : State
  untold : Line → Option Carried

/-- The part between two commands: the owners know every outcome that is fixed. -/
def State.config (s : State) : Config := ⟨s, s.untold⟩

/-! ### What a move may write -/

/-- A line's blocks change, but for its queues and its notices. -/
structure LineBlock.Keeps (new old : LineBlock) : Prop where
  urgent : new.urgent = old.urgent
  normal : new.normal = old.normal
  notice : new.guard.noticePending = old.guard.noticePending
  runNotice : new.discovery.noticePending = old.discovery.noticePending
  params : old.guard.params.inRange = true → new.guard.params.inRange = true

/-- An entry changes, but for its place, its notice and its change count: it comes into use on no new
address (R6), and assign hold and removal pending stay where they belong (R18, R22). -/
structure NodeEntry.Follows (new old : NodeEntry) : Prop where
  line : new.line = old.line
  address : new.address = old.address
  notice : new.noticePending = old.noticePending
  count : new.changeCount = old.changeCount
  inUse : new.state ≠ .free ∨ new.assignHold = true → old.state ≠ .free ∨ old.assignHold = true
  hold : new.assignHold = true → new.state ≠ .free → old.assignHold = true ∧ old.state ≠ .free
  leaving : new.removalPending = true → new.state = .free →
    old.removalPending = true ∧ old.state = .free

/-- An allocatable entry is filled or claimed (R4, R5, R22). -/
structure NodeEntry.Fills (new old : NodeEntry) : Prop where
  allocatable : old.allocatable = true
  notice : new.noticePending = old.noticePending
  count : new.changeCount = 0 ∨ new.changeCount = old.changeCount
  hold : new.assignHold = true → new.state = .free
  leaving : new.removalPending = true → new.state = .free →
    old.removalPending = true ∧ old.state = .free

/-- A miss run goes up to a line's miss limit only (R10). -/
def State.MissFits (s : State) (new old : NodeEntry) : Prop :=
  new.missRun ≤ old.missRun ∨ ∃ l : Line, new.missRun ≤ (s.line l).guard.params.missLimit.toNat

/-- The host link on its own: inbox, parser and gap timer agree (R158 to R162, R166). -/
def HostLink.Sound (k : HostLink) : Prop :=
  k.inbox.length ≤ 4 ∧
  (k.inbox.filterMap fun e => e.state.sendingReply) =
    (k.transmitter.bind Transmission.replyMessage).toList ∧
  ((k.inbox.any fun e => e.state.isWaiting) = true → k.resetPending = true) ∧
  (k.parser = .hunt → k.gapTimer = none) ∧ k.parser.consistent = true

/-- The link changes, but for its notice and the report in transmission. -/
structure HostLink.Keeps (new old : HostLink) : Prop where
  notice : new.notice = old.notice
  source : new.transmitter.bind Transmission.source = old.transmitter.bind Transmission.source
  sound : old.Sound → new.Sound

/-! ### The moves -/

/-- One move of a command within the part. -/
inductive Move : Config → Config → Prop
  | line {s u} (l : Line) (b : LineBlock) (h : b.Keeps (s.line l)) : Move ⟨s, u⟩ ⟨s.setLine l b, u⟩
  | node {s u} (i : EntryIndex) (e : NodeEntry) (h : e.Follows (s.node i))
      (hm : s.MissFits e (s.node i)) : Move ⟨s, u⟩ ⟨s.setNode i e, u⟩
  | fill {s u} (i : EntryIndex) (e : NodeEntry) (h : e.Fills (s.node i))
      (hm : s.MissFits e (s.node i)) (ha : addressInUse e.line e.address s = false) :
      Move ⟨s, u⟩ ⟨s.setNode i e, u⟩
  | nodeNotice {s u} (i : EntryIndex) : Move ⟨s, u⟩ ⟨raiseNodeNotice i s, u⟩
  | lineNotice {s u} (l : Line) : Move ⟨s, u⟩ ⟨raiseLineNotice l s, u⟩
  | runNotice {s u} (l : Line) : Move ⟨s, u⟩ ⟨raiseDiscoveryNotice l s, u⟩
  | completeQueued {s u} (l : Line) (p : TransferRecord → Bool) (result : TransferResult) :
      Move ⟨s, u⟩ ⟨(completeQueued l p result s).1, u⟩
  | completeFromQueue {s u} (r : RecordIndex) (result : TransferResult)
      (h : (s.record r).state = .queued) : Move ⟨s, u⟩ ⟨completeFromQueue r result s, u⟩
  /-- A FREE record is filled and queued. -/
  | submit {s u} (r : RecordIndex) (x : TransferRecord) (h : (s.record r).state = .free)
      (hx : x.state = .queued)
      (htag : ∀ q : RecordIndex, (s.record q).state ≠ .free → (s.record q).tag ≠ x.tag) :
      Move ⟨s, u⟩ ⟨queueTail r (s.setRecord r x), u⟩
  /-- A queued record leaves its queue for an engine. -/
  | pickRecord {s u} (l : Line) (r : RecordIndex) (t : Option Handle) (h : u l = none)
      (hr : r ∈ (s.line l).queued) :
      Move ⟨s, u⟩ ⟨(s.updLine l fun b => { b with
          urgent := b.urgent.erase r, normal := b.normal.erase r }).setRecord r
        { s.record r with state := .inFlight, deadline := none, deadlineTimer := none },
        Function.update u l (some (.transfer r t))⟩
  /-- A slot is reserved for an exchange that an engine takes. -/
  | reserve {s u} (l : Line) (k : SlotIndex) (h : Handle) (hu : u l = none)
      (hk : (s.slot k).state = .free) :
      Move ⟨s, u⟩ ⟨reserveSlot k l h s, Function.update u l (some (.poll h (some k)))⟩
  /-- An engine takes an exchange that carries neither a record nor a slot. -/
  | handOver {s u} (l : Line) (c : Carried) (h : u l = none) (hr : c.record = none)
      (hk : c.slot = none) : Move ⟨s, u⟩ ⟨s, Function.update u l (some c)⟩
  /-- Neither a record nor a slot waits for the outcome. -/
  | told {s u} (l : Line) (c : Carried) (h : u l = some c) (hr : c.record = none)
      (hk : c.slot = none) : Move ⟨s, u⟩ ⟨s, Function.update u l none⟩
  | tellRecord {s u} (l : Line) (r : RecordIndex) (t : Option Handle) (o : ExchangeOutcome)
      (gone lost stopping : Bool) (h : u l = some (.transfer r t)) :
      Move ⟨s, u⟩ ⟨tellRecord r o gone lost stopping s, Function.update u l none⟩
  | freeSlot {s u} (l : Line) (h : Handle) (k : SlotIndex) (hu : u l = some (.poll h (some k))) :
      Move ⟨s, u⟩ ⟨freeSlot (some k) s, Function.update u l none⟩
  | fillSlot {s u} (l : Line) (h : Handle) (k : SlotIndex) (payload : List Byte)
      (hu : u l = some (.poll h (some k))) :
      Move ⟨s, u⟩ ⟨enqueue (.data k) (s.setSlot k { s.slot k with
        state := .filled, payload := payload }), Function.update u l none⟩
  | credit {s u} (n : BitVec 8) : Move ⟨s, u⟩ ⟨s.updLink fun k => { k with credits := n }, u⟩
  | awaitReset {s u} : Move ⟨s, u⟩ ⟨s.updLink fun k => { k with resetPending := true }, u⟩

/-- One move of the host link, or the reset of every block. -/
inductive LinkMove : Config → Config → Prop
  | notice {s u} (f : LinkNotice → LinkNotice) : LinkMove ⟨s, u⟩ ⟨raiseLinkNotice f s, u⟩
  | link {s u} (f : HostLink → HostLink) (h : (f s.link).Keeps s.link) :
      LinkMove ⟨s, u⟩ ⟨s.updLink f, u⟩
  | beginReport {s u} (src : Source) (rest : List Source) (h : s.reports = src :: rest)
      (ht : s.link.transmitter = none) : LinkMove ⟨s, u⟩ ⟨beginReport src rest s, u⟩
  | finishReport {s u} : LinkMove ⟨s, u⟩ ⟨finishReport s, u⟩
  | reset {s u} (straps : BitVec 2) (pin : ResetPin) :
      LinkMove ⟨s, u⟩ ⟨blocksReset straps pin s, fun _ => none⟩

/-- Some moves, one after another. -/
abbrev Moves : Config → Config → Prop := Relation.ReflTransGen Move

/-- What every move keeps, moves keep. -/
theorem Moves.keep {P : Config → Prop} (hP : ∀ {c d}, Move c d → P c → P d) {c d : Config}
    (h : Moves c d) (hc : P c) : P d := by
  induction h with
  | refl => exact hc
  | tail _ hm ih => exact hP hm ih

/-- From the part between two commands to the part between two commands. -/
abbrev Reaches (s t : State) : Prop := Moves s.config t.config

theorem Moves.of_eq {c d : Config} (h : c = d) : Moves c d := h ▸ .refl

theorem Reaches.of_move {s t : State} (h : Move s.config ⟨t, s.untold⟩) (hu : t.untold = s.untold) :
    Reaches s t := by
  rw [← hu] at h
  exact .single h

/-- Moves that leave every engine with its exchange. -/
theorem Reaches.of_moves {s t : State} (h : Moves s.config ⟨t, s.untold⟩)
    (hu : t.untold = s.untold) : Reaches s t := by
  rw [← hu] at h
  exact h

/-! ### What leaves every engine with its exchange -/

theorem State.untold_setLine (s : State) (l : Line) (b : LineBlock) :
    (s.setLine l b).untold = Function.update s.untold l b.untold := by
  funext m
  by_cases h : m = l
  · subst h; simp [State.untold]
  · simp [State.untold, State.line_setLine, h]

theorem State.untold_setLine_of_eq {s : State} {l : Line} {b : LineBlock}
    (h : b.untold = s.untold l) : (s.setLine l b).untold = s.untold := by
  rw [State.untold_setLine, h, Function.update_eq_self]

/-- A change of a line that leaves its engine, or leaves it its exchange. -/
theorem State.untold_updLine {s : State} {l : Line} {f : LineBlock → LineBlock}
    (h : (f (s.line l)).untold = (s.line l).untold) : (s.updLine l f).untold = s.untold :=
  State.untold_setLine_of_eq h

@[simp] theorem State.untold_setNode (s : State) (i : EntryIndex) (e : NodeEntry) :
    (s.setNode i e).untold = s.untold := by funext m; simp [State.untold]

@[simp] theorem State.untold_setRecord (s : State) (r : RecordIndex) (x : TransferRecord) :
    (s.setRecord r x).untold = s.untold := by funext m; simp [State.untold]

@[simp] theorem State.untold_setSlot (s : State) (k : SlotIndex) (x : ReceiveSlot) :
    (s.setSlot k x).untold = s.untold := by funext m; simp [State.untold]

@[simp] theorem State.untold_updLink (s : State) (f : HostLink → HostLink) :
    (s.updLink f).untold = s.untold := by funext m; simp [State.untold]

@[simp] theorem State.untold_withReports (s : State) (q : List Source) :
    (s.withReports q).untold = s.untold := by funext m; simp [State.untold]

@[simp] theorem State.untold_updGuard (s : State) (l : Line) (f : LineGuard → LineGuard) :
    (s.updGuard l f).untold = s.untold := State.untold_updLine rfl

@[simp] theorem State.untold_updScheduler (s : State) (l : Line) (f : Scheduler → Scheduler) :
    (s.updScheduler l f).untold = s.untold := State.untold_updLine rfl

@[simp] theorem State.untold_updDiscovery (s : State) (l : Line) (f : Discovery → Discovery) :
    (s.updDiscovery l f).untold = s.untold := State.untold_updLine rfl

@[simp] theorem State.untold_updCounters (s : State) (l : Line) (f : LineCounters → LineCounters) :
    (s.updCounters l f).untold = s.untold := State.untold_updLine rfl

@[simp] theorem untold_enqueue (src : Source) (s : State) : (enqueue src s).untold = s.untold := by
  simp [enqueue_withReports]

@[simp] theorem untold_raiseNodeNotice (i : EntryIndex) (s : State) :
    (raiseNodeNotice i s).untold = s.untold := by simp [raiseNodeNotice]

@[simp] theorem untold_raiseLineNotice (l : Line) (s : State) :
    (raiseLineNotice l s).untold = s.untold := by simp [raiseLineNotice]

@[simp] theorem untold_raiseDiscoveryNotice (l : Line) (s : State) :
    (raiseDiscoveryNotice l s).untold = s.untold := by simp [raiseDiscoveryNotice]

@[simp] theorem untold_raiseLinkNotice (f : LinkNotice → LinkNotice) (s : State) :
    (raiseLinkNotice f s).untold = s.untold := by simp [raiseLinkNotice]

@[simp] theorem untold_completeRecord (r : RecordIndex) (result : TransferResult) (s : State) :
    (completeRecord r result s).untold = s.untold := by simp [completeRecord]

/-- An event of one line that leaves that line its exchange. -/
theorem State.untold_of_line {s t : State} (l : Line) (hl : (t.line l).untold = (s.line l).untold)
    (ho : KeptOutside l s t) : t.untold = s.untold := by
  have hline : ∀ m, m = l ∨ m = otherLine l := by intro m; cases l <;> cases m <;> simp [otherLine]
  funext m
  rcases hline m with rfl | rfl
  · exact hl
  · exact congrArg LineBlock.untold ho.1

@[simp] theorem untold_completeQueued (l : Line) (p : TransferRecord → Bool)
    (result : TransferResult) (s : State) :
    (completeQueued l p result s).1.untold = s.untold := by
  obtain ⟨-, -, hl, -, -, -, ho⟩ := completeQueued_spec l p result s
  exact State.untold_of_line l (by rw [hl]; rfl) ho

@[simp] theorem untold_completeFromQueue (r : RecordIndex) (result : TransferResult) (s : State) :
    (completeFromQueue r result s).untold = s.untold := by
  rw [completeFromQueue, untold_completeRecord, State.untold_updLine rfl]

@[simp] theorem untold_queueTail (r : RecordIndex) (s : State) :
    (queueTail r s).untold = s.untold := by
  apply State.untold_updLine
  split <;> rfl

@[simp] theorem untold_queueHead (r : RecordIndex) (s : State) :
    (queueHead r s).untold = s.untold := by
  apply State.untold_updLine
  split <;> rfl

@[simp] theorem untold_completeRemoval (i : EntryIndex) (s : State) :
    (completeRemoval i s).untold = s.untold := by
  unfold completeRemoval; dsimp only; split <;> simp

@[simp] theorem untold_finishTarget (c : Carried) (s : State) :
    (finishTarget c s).untold = s.untold := by
  unfold finishTarget; split <;> simp

@[simp] theorem untold_releaseClaim (l : Line) (s : State) :
    (releaseClaim l s).untold = s.untold := by
  unfold releaseClaim
  split
  · split <;> simp
  · rfl

theorem untold_finishExchange (l : Line) (c : Carried) (s : State) :
    (finishExchange l c s).untold = Function.update s.untold l none := by
  rw [finishExchange, untold_finishTarget, State.setEngine_eq, State.untold_setLine]
  rfl

@[simp] theorem untold_endRun (l : Line) (r : StopReason) (s : State) :
    (endRun l r s).untold = s.untold := by
  obtain ⟨hl, -, -, -, -, ho⟩ := endRun_spec l r s
  exact State.untold_of_line l (by rw [hl]; rfl) ho

@[simp] theorem untold_endRunPending (l : Line) (r : StopReason) (s : State) :
    (endRunPending l r s).untold = s.untold := untold_endRun ..

/-! ### Writes of a line -/

theorem LineBlock.Keeps.rfl {b : LineBlock} : b.Keeps b := ⟨.refl _, .refl _, .refl _, .refl _, id⟩

theorem moves_setLine {s : State} (u : Line → Option Carried) (l : Line) {b : LineBlock}
    (h : b.Keeps (s.line l)) : Moves ⟨s, u⟩ ⟨s.setLine l b, u⟩ := .single (.line l b h)

theorem moves_updLine {s : State} (u : Line → Option Carried) (l : Line) {f : LineBlock → LineBlock}
    (h : (f (s.line l)).Keeps (s.line l)) : Moves ⟨s, u⟩ ⟨s.updLine l f, u⟩ := moves_setLine u l h

theorem moves_setEngine {s : State} (u : Line → Option Carried) (l : Line) (e : Engine) :
    Moves ⟨s, u⟩ ⟨s.setEngine l e, u⟩ := moves_setLine u l ⟨rfl, rfl, rfl, rfl, id⟩

/-- A write of a line that leaves its queues, its notices and its exchange. -/
theorem reaches_updLine {s : State} {l : Line} {f : LineBlock → LineBlock}
    (h : (f (s.line l)).Keeps (s.line l)) (hu : (f (s.line l)).untold = (s.line l).untold) :
    Reaches s (s.updLine l f) := .of_moves (moves_updLine _ l h) (State.untold_updLine hu)

theorem reaches_updScheduler (s : State) (l : Line) (f : Scheduler → Scheduler) :
    Reaches s (s.updScheduler l f) := reaches_updLine ⟨rfl, rfl, rfl, rfl, id⟩ rfl

theorem reaches_updDiscovery {s : State} {l : Line} {f : Discovery → Discovery}
    (h : (f (s.line l).discovery).noticePending = (s.line l).discovery.noticePending) :
    Reaches s (s.updDiscovery l f) := reaches_updLine ⟨rfl, rfl, rfl, h, id⟩ rfl

theorem moves_updDiscovery {s : State} (u : Line → Option Carried) {l : Line}
    {f : Discovery → Discovery}
    (h : (f (s.line l).discovery).noticePending = (s.line l).discovery.noticePending) :
    Moves ⟨s, u⟩ ⟨s.updDiscovery l f, u⟩ := moves_setLine u l ⟨rfl, rfl, rfl, h, id⟩

theorem moves_updCounters {s : State} (u : Line → Option Carried) (l : Line)
    (f : LineCounters → LineCounters) : Moves ⟨s, u⟩ ⟨s.updCounters l f, u⟩ :=
  moves_setLine u l ⟨rfl, rfl, rfl, rfl, id⟩

/-- An engine moves on within its exchange. -/
theorem reaches_setEngine {s : State} {l : Line} {e : Engine} {x : Exchange}
    (h : (s.line l).engine.unfixed = some x) (he : e.unfixed = some x) :
    Reaches s (s.setEngine l e) :=
  reaches_updLine ⟨rfl, rfl, rfl, rfl, id⟩ (by simp [LineBlock.untold, h, he])

theorem reaches_releaseDriver (l : Line) (s : State) : Reaches s (releaseDriver l s) := by
  rw [releaseDriver]
  apply reaches_updLine
  · split
    · exact ⟨rfl, rfl, rfl, rfl, id⟩
    · exact .rfl
  · split <;> rfl

/-! ### Writes of an entry -/

theorem NodeEntry.Follows.rfl {e : NodeEntry} : e.Follows e :=
  ⟨.refl _, .refl _, .refl _, .refl _, id, fun h h' => ⟨h, h'⟩, fun h h' => ⟨h, h'⟩⟩

theorem NodeEntry.Follows.trans {a b c : NodeEntry} (h : a.Follows b) (h' : b.Follows c) :
    a.Follows c where
  line := h.line.trans h'.line
  address := h.address.trans h'.address
  notice := h.notice.trans h'.notice
  count := h.count.trans h'.count
  inUse x := h'.inUse (h.inUse x)
  hold x y := h'.hold (h.hold x y).1 (h.hold x y).2
  leaving x y := h'.leaving (h.leaving x y).1 (h.leaving x y).2

/-- A held entry stays held, or goes FREE with no removal pending; its hold is as before or over. -/
theorem NodeEntry.Follows.of_held {new old : NodeEntry} (ho : old.state ≠ .free)
    (hl : new.line = old.line) (ha : new.address = old.address)
    (hn : new.noticePending = old.noticePending) (hc : new.changeCount = old.changeCount)
    (hh : new.assignHold = true → old.assignHold = true)
    (hr : new.removalPending = true → new.state ≠ .free) : new.Follows old :=
  ⟨hl, ha, hn, hc, fun _ => .inl ho, fun h _ => ⟨hh h, ho⟩, fun h h' => absurd h' (hr h)⟩

theorem State.MissFits.of_le {s : State} {new old : NodeEntry} (h : new.missRun ≤ old.missRun) :
    s.MissFits new old := .inl h

theorem moves_setNode {s : State} (u : Line → Option Carried) {i : EntryIndex} {e : NodeEntry}
    (h : e.Follows (s.node i)) (hm : s.MissFits e (s.node i)) : Moves ⟨s, u⟩ ⟨s.setNode i e, u⟩ :=
  .single (.node i e h hm)

theorem reaches_setNode {s : State} {i : EntryIndex} {e : NodeEntry} (h : e.Follows (s.node i))
    (hm : s.MissFits e (s.node i)) : Reaches s (s.setNode i e) :=
  .of_moves (moves_setNode _ h hm) (by simp)

/-- A flag outside what the moves look at. -/
theorem moves_morePending {s : State} (u : Line → Option Carried) (i : EntryIndex) (more : Bool) :
    Moves ⟨s, u⟩ ⟨s.setNode i { s.node i with morePending := more }, u⟩ :=
  moves_setNode u ⟨rfl, rfl, rfl, rfl, id, fun h h' => ⟨h, h'⟩, fun h h' => ⟨h, h'⟩⟩
    (.of_le le_rfl)

theorem moves_raiseNodeNotice {s : State} (u : Line → Option Carried) (i : EntryIndex) :
    Moves ⟨s, u⟩ ⟨raiseNodeNotice i s, u⟩ := .single (.nodeNotice i)

theorem reaches_raiseLineNotice (l : Line) (s : State) : Reaches s (raiseLineNotice l s) :=
  .of_move (.lineNotice l) (by simp)

theorem reaches_raiseDiscoveryNotice (l : Line) (s : State) :
    Reaches s (raiseDiscoveryNotice l s) := .of_move (.runNotice l) (by simp)

theorem reaches_completeQueued (l : Line) (p : TransferRecord → Bool) (result : TransferResult)
    (s : State) : Reaches s (completeQueued l p result s).1 :=
  .of_move (.completeQueued l p result) (by simp)

theorem reaches_abortQueued (l : Line) (s : State) : Reaches s (abortQueued l s).1 :=
  reaches_completeQueued ..

theorem moves_completeRemoval (u : Line → Option Carried) (i : EntryIndex) (s : State) :
    Moves ⟨s, u⟩ ⟨completeRemoval i s, u⟩ := by
  unfold completeRemoval
  dsimp only
  split
  · have hfree : NodeEntry.Follows
        { s.node i with state := .free, removalPending := false, lastChange := .removed }
        (s.node i) :=
      ⟨rfl, rfl, rfl, rfl, by rintro (h | h); exacts [absurd rfl h, .inr h],
        fun _ h => absurd rfl h, fun h => by simp at h⟩
    exact (moves_setNode u hfree (.of_le le_rfl)).trans (moves_raiseNodeNotice u i)
  · exact .refl

theorem moves_finishTarget (u : Line → Option Carried) (c : Carried) (s : State) :
    Moves ⟨s, u⟩ ⟨finishTarget c s, u⟩ := by
  unfold finishTarget
  split
  · exact moves_completeRemoval u _ s
  · exact .refl

theorem reaches_finishTarget (c : Carried) (s : State) : Reaches s (finishTarget c s) :=
  .of_moves (moves_finishTarget _ c s) (by simp)

/-- Assign hold ends (R22, R112). -/
theorem moves_releaseClaim (u : Line → Option Carried) (l : Line) (s : State) :
    Moves ⟨s, u⟩ ⟨releaseClaim l s, u⟩ := by
  unfold releaseClaim
  split
  · split
    · refine moves_setNode u ⟨rfl, rfl, rfl, rfl, ?_, fun h => by simp at h, fun h h' => ⟨h, h'⟩⟩
        (.of_le le_rfl)
      rintro (h | h)
      · exact .inl h
      · simp at h
    · exact .refl
  · exact .refl

theorem reaches_releaseClaim (l : Line) (s : State) : Reaches s (releaseClaim l s) :=
  .of_moves (moves_releaseClaim _ l s) (by simp)

/-! ### An exchange ends -/

/-- An engine in GUARD or IDLE leaves what it carried, whose owners know the outcome. -/
theorem reaches_finishExchange {s : State} {l : Line} (c : Carried) (h : s.untold l = none) :
    Reaches s (finishExchange l c s) := by
  refine .of_moves ?_ (by rw [untold_finishExchange, ← h, Function.update_eq_self])
  exact (moves_setEngine _ l .idle).trans (moves_finishTarget _ c _)

theorem State.untold_guard {s : State} {l : Line} {x : Exchange} {o : ExchangeOutcome} {d : Duration}
    (h : (s.line l).engine = .guard x o d) : s.untold l = none := by
  simp [State.untold, LineBlock.untold, h, Engine.unfixed]

theorem State.untold_idle {s : State} {l : Line} (h : (s.line l).engine = .idle) :
    s.untold l = none := by
  simp [State.untold, LineBlock.untold, h, Engine.unfixed]

theorem reaches_cutGuard (l : Line) (s : State) : Reaches s (cutGuard l s) := by
  unfold cutGuard
  split
  · rename_i h
    exact reaches_finishExchange _ (State.untold_guard h)
  · exact .refl

/-! ### The outcome of an exchange at its owners -/

theorem validReply_follows (restart : Bool) {e : NodeEntry} (h : e.state ≠ .free)
    (hr : e.removalPending = false) : (validReply restart e).entry.Follows e := by
  have hleft {st : NodeState} : e.removalPending = true → st ≠ .free := by simp [hr]
  unfold validReply
  cases hs : e.state with
  | free => exact .rfl
  | parked | active | pending | silent | lost => exact .of_held h rfl rfl rfl rfl id hleft

theorem miss_follows (limit : Nat) {e : NodeEntry} (h : e.state ≠ .free)
    (hr : e.removalPending = false) : (miss limit e).entry.Follows e := by
  have hleft {st : NodeState} : e.removalPending = true → st ≠ .free := by simp [hr]
  unfold miss
  cases hs : e.state with
  | free => exact .rfl
  | parked => exact .of_held h rfl rfl rfl rfl id hleft
  | lost => exact .of_held h rfl rfl rfl rfl id hleft
  | pending | silent | active =>
    dsimp only
    split <;> exact .of_held h rfl rfl rfl rfl id hleft

theorem sequenceEffect_follows (f : MasterFrame) (before : NodeEntry) (c : NodeReply)
    (e : NodeEntry) : (sequenceEffect f before c e).Follows e := by
  unfold sequenceEffect
  split
  · split
    · exact .rfl
    · exact ⟨rfl, rfl, rfl, rfl, id, fun h h' => ⟨h, h'⟩, fun h h' => ⟨h, h'⟩⟩
  · exact ⟨rfl, rfl, rfl, rfl, id, fun h h' => ⟨h, h'⟩, fun h h' => ⟨h, h'⟩⟩
  · exact ⟨rfl, rfl, rfl, rfl, id, fun h h' => ⟨h, h'⟩, fun h h' => ⟨h, h'⟩⟩
  · exact .rfl

/-- What an outcome makes of an entry follows it (R8 to R16). -/
theorem entryOutcome_follows (f : MasterFrame) (o : ExchangeOutcome) (limit : Nat) (e : NodeEntry) :
    (entryOutcome f o limit e).entry.Follows e := by
  unfold entryOutcome
  split
  · exact .rfl
  · rename_i hb
    simp only [Bool.or_eq_true, not_or, Bool.not_eq_true, NodeEntry.held, Bool.not_eq_eq_eq_not,
      Bool.not_true, bne_eq_false_iff_eq] at hb
    obtain ⟨hr, hs⟩ := hb
    cases o with
    | reply c => exact (sequenceEffect_follows f e c _).trans (validReply_follows _ hs hr)
    | noReply | badReply => exact miss_follows limit hs hr
    | aborted =>
      dsimp only
      split
      · exact .of_held hs rfl rfl rfl rfl id fun _ => hs
      · exact .rfl
    | contention | lineFault | sent => exact .rfl

theorem sequenceEffect_missRun (f : MasterFrame) (before : NodeEntry) (c : NodeReply)
    (e : NodeEntry) : (sequenceEffect f before c e).missRun = e.missRun := by
  unfold sequenceEffect
  split
  · split <;> rfl
  all_goals rfl

theorem validReply_missRun (restart : Bool) (e : NodeEntry) :
    (validReply restart e).entry.missRun ≤ e.missRun := by
  unfold validReply
  cases e.state with
  | free | parked => exact le_rfl
  | active | pending | silent | lost => exact Nat.zero_le _

theorem miss_missRun (limit : Nat) (e : NodeEntry) :
    (miss limit e).entry.missRun ≤ e.missRun ∨ (miss limit e).entry.missRun ≤ limit := by
  unfold miss
  cases e.state with
  | free | parked | lost => exact .inl le_rfl
  | pending | silent | active =>
    dsimp only
    split
    · rename_i h; exact .inr h.le
    · exact .inr le_rfl

/-- An outcome takes a miss run to the miss limit at most (R10). -/
theorem entryOutcome_missRun (f : MasterFrame) (o : ExchangeOutcome) (limit : Nat) (e : NodeEntry) :
    (entryOutcome f o limit e).entry.missRun ≤ e.missRun ∨
      (entryOutcome f o limit e).entry.missRun ≤ limit := by
  unfold entryOutcome
  split
  · exact .inl le_rfl
  · cases o with
    | reply c => exact .inl ((sequenceEffect_missRun f e c _).trans_le (validReply_missRun _ e))
    | noReply | badReply => exact miss_missRun limit e
    | aborted =>
      dsimp only
      split <;> exact .inl le_rfl
    | contention | lineFault | sent => exact .inl le_rfl

theorem moves_tellNode (u : Line → Option Carried) (i : EntryIndex) (f : MasterFrame)
    (o : ExchangeOutcome) (l : Line) (s : State) : Moves ⟨s, u⟩ ⟨(tellNode i f o l s).1, u⟩ := by
  have hm := entryOutcome_missRun f o (s.line l).guard.params.missLimit.toNat (s.node i)
  have hset := moves_setNode u (entryOutcome_follows f o _ (s.node i)) (hm.imp_right fun h => ⟨l, h⟩)
  unfold tellNode
  dsimp only
  split
  · exact hset.trans (moves_raiseNodeNotice u i)
  · exact hset

theorem moves_loseTransfers (u : Line → Option Carried) (l : Line) (i : EntryIndex) (lost : Bool)
    (s : State) : Moves ⟨s, u⟩ ⟨loseTransfers l i lost s, u⟩ := by
  cases lost with
  | false => exact .refl
  | true => exact .single (.completeQueued l _ _)

/-- A reservation ends with nothing stored. -/
theorem moves_freeSlot {u : Line → Option Carried} {l : Line} {h : Handle} {slot : Option SlotIndex}
    (s : State) (hu : u l = some (.poll h slot)) :
    Moves ⟨s, u⟩ ⟨freeSlot slot s, Function.update u l none⟩ := by
  cases slot with
  | none => exact .single (.told l _ hu rfl rfl)
  | some k => exact .single (.freeSlot l h k hu)

theorem storeData_eq (k : SlotIndex) (i : EntryIndex) (toggle : Bool) (payload : List Byte)
    (s : State) :
    let t := enqueue (.data k) (s.setSlot k { s.slot k with state := .filled, payload := payload })
    storeData k i toggle payload s = t.setNode i { t.node i with acceptedToggle := toggle } := by
  intro t
  simp only [t, storeData, enqueue_withReports]
  rfl

theorem moves_storeData {u : Line → Option Carried} {l : Line} {h : Handle} {k : SlotIndex}
    (i : EntryIndex) (toggle : Bool) (payload : List Byte) (s : State)
    (hu : u l = some (.poll h (some k))) :
    Moves ⟨s, u⟩ ⟨storeData k i toggle payload s, Function.update u l none⟩ := by
  rw [storeData_eq]
  have hfill : Moves ⟨s, u⟩ _ := .single (.fillSlot l h k payload hu)
  exact hfill.trans (moves_setNode _
    ⟨rfl, rfl, rfl, rfl, id, fun h h' => ⟨h, h'⟩, fun h h' => ⟨h, h'⟩⟩ (.of_le le_rfl))

theorem moves_tellStore {u : Line → Option Carried} {l : Line} {h : Handle} {slot : Option SlotIndex}
    (i : EntryIndex) (f : MasterFrame) (o : ExchangeOutcome) (before : NodeEntry) (s : State)
    (hu : u l = some (.poll h slot)) :
    Moves ⟨s, u⟩ ⟨tellStore l i slot f o before s, Function.update u l none⟩ := by
  have hfree := moves_freeSlot s hu
  unfold tellStore
  split
  · exact hfree
  · split
    · split
      · exact hfree.trans (moves_morePending _ i true)
      · split
        · exact hfree.trans (moves_updCounters _ l _)
        · cases slot with
          | none =>
            exact (moves_morePending u i true).trans (.single (.told l _ hu rfl rfl))
          | some k => exact moves_storeData i _ _ s hu
    · exact hfree

theorem Discovery.collision_noticePending (d : Discovery) :
    d.collision.noticePending = d.noticePending := by
  unfold collision; split
  · rfl
  · split <;> rfl

theorem Discovery.inviteOutcome_noticePending (d : Discovery) (o : ExchangeOutcome) :
    (d.inviteOutcome o).noticePending = d.noticePending := by
  unfold inviteOutcome
  split
  · rfl
  · exact d.collision_noticePending
  · split
    · rfl
    · split
      · rfl
      · exact d.collision_noticePending
  · rfl

theorem Discovery.roundFailed_noticePending (d : Discovery) :
    d.roundFailed.noticePending = d.noticePending := by
  unfold roundFailed; split
  · rfl
  · split <;> rfl

theorem moves_tellInvite (u : Line → Option Carried) (l : Line) (o : ExchangeOutcome) (s : State) :
    Moves ⟨s, u⟩ ⟨tellInvite l o s, u⟩ := by
  unfold tellInvite
  split
  · exact moves_updDiscovery u (Discovery.inviteOutcome_noticePending _ o)
  · exact .refl

/-- An entry is written and its notice raised. -/
theorem moves_setNode_notice {s : State} (u : Line → Option Carried) {i : EntryIndex} {e : NodeEntry}
    (h : e.Follows (s.node i)) (hm : s.MissFits e (s.node i)) :
    Moves ⟨s, u⟩ ⟨raiseNodeNotice i (s.setNode i e), u⟩ :=
  (moves_setNode u h hm).trans (moves_raiseNodeNotice u i)

theorem NodeEntry.bindClaim_follows {e : NodeEntry} (h : e.assignHold = true) :
    e.bindClaim.Follows e :=
  ⟨rfl, rfl, rfl, rfl, fun _ => .inr h, (nomatch ·), fun _ => (nomatch ·)⟩

theorem NodeEntry.bindReused_follows {e : NodeEntry} (h : e.held = true)
    (hr : e.removalPending = false) : e.bindReused.Follows e :=
  .of_held (by simpa [NodeEntry.held] using h) rfl rfl rfl rfl id
    fun h' => absurd (hr.symm.trans h') (by decide)

theorem moves_bindAssignment (u : Line → Option Carried) (l : Line) (a : Assignment) (s : State) :
    Moves ⟨s, u⟩ ⟨bindAssignment l a s, u⟩ := by
  unfold bindAssignment
  dsimp only
  split
  · split
    · rename_i h
      exact (moves_setNode_notice u (NodeEntry.bindClaim_follows h) (.of_le (Nat.zero_le _))).trans
        (moves_updDiscovery u rfl)
    · exact .refl
  · split
    · rename_i h
      simp only [Bool.and_eq_true, Bool.not_eq_true'] at h
      exact (moves_setNode_notice u (NodeEntry.bindReused_follows h.1 h.2)
        (.of_le (Nat.zero_le _))).trans (moves_updDiscovery u rfl)
    · exact .refl

theorem moves_failAssignment (u : Line → Option Carried) (l : Line) (a : Assignment) (s : State) :
    Moves ⟨s, u⟩ ⟨failAssignment l a s, u⟩ := by
  unfold failAssignment
  split
  · exact .refl
  · split
    · exact .refl
    · exact (moves_releaseClaim u l s).trans
        (moves_updDiscovery u (Discovery.roundFailed_noticePending _))

theorem moves_tellAssign (u : Line → Option Carried) (l : Line) (o : ExchangeOutcome) (s : State) :
    Moves ⟨s, u⟩ ⟨tellAssign l o s, u⟩ := by
  unfold tellAssign
  dsimp only
  split
  · split
    · rename_i a _
      cases o with
      | reply c => exact moves_bindAssignment u l a s
      | noReply | badReply | contention => exact moves_failAssignment u l a s
      | lineFault | aborted | sent => exact .refl
    · exact .refl
  · exact .refl

/-- The owners of an exchange are told its outcome (Table 4-7). -/
theorem moves_tellOwners {u : Line → Option Carried} {l : Line} (x : Exchange) (o : ExchangeOutcome)
    (stopping : Bool) (s : State) (hu : u l = some x.carried) :
    Moves ⟨s, u⟩ ⟨tellOwners l x o stopping s, Function.update u l none⟩ := by
  unfold tellOwners
  split
  · rename_i h slot hc
    rw [hc] at hu
    exact ((moves_tellNode u _ _ _ l s).trans (moves_loseTransfers u l _ _ _)).trans
      (moves_tellStore _ _ _ _ _ hu)
  · rename_i r h hc
    rw [hc] at hu
    exact ((moves_tellNode u _ _ _ l s).tail (.tellRecord l r _ _ _ _ _ hu)).trans
      (moves_loseTransfers _ l _ _ _)
  · rename_i r hc
    rw [hc] at hu
    exact .single (.tellRecord l r _ _ _ _ _ hu)
  · rename_i hc
    rw [hc] at hu
    exact (moves_tellInvite u l o s).tail (.told l _ hu rfl rfl)
  · rename_i hc
    rw [hc] at hu
    exact (moves_tellAssign u l o s).tail (.told l _ hu rfl rfl)

/-! ### Telling the owners leaves every engine as it is -/

@[simp] theorem untold_tellNode (i : EntryIndex) (f : MasterFrame) (o : ExchangeOutcome) (l : Line)
    (s : State) : (tellNode i f o l s).1.untold = s.untold := by simp [tellNode_eq]

@[simp] theorem untold_freeSlot (slot : Option SlotIndex) (s : State) :
    (freeSlot slot s).untold = s.untold := by cases slot <;> simp [freeSlot]

@[simp] theorem untold_tellStore (l : Line) (i : EntryIndex) (slot : Option SlotIndex)
    (f : MasterFrame) (o : ExchangeOutcome) (before : NodeEntry) (s : State) :
    (tellStore l i slot f o before s).untold = s.untold := by
  unfold tellStore
  split
  · simp
  · split
    · split
      · simp [keepAtNode]
      · split
        · simp
        · split <;> simp [storeData, keepAtNode]
    · simp

@[simp] theorem untold_tellRecord (r : RecordIndex) (o : ExchangeOutcome)
    (gone lost stopping : Bool) (s : State) :
    (tellRecord r o gone lost stopping s).untold = s.untold := by
  unfold tellRecord; dsimp only; split <;> simp

@[simp] theorem untold_loseTransfers (l : Line) (i : EntryIndex) (lost : Bool) (s : State) :
    (loseTransfers l i lost s).untold = s.untold := by
  cases lost <;> simp [loseTransfers, completeAimedAt]

@[simp] theorem untold_tellInvite (l : Line) (o : ExchangeOutcome) (s : State) :
    (tellInvite l o s).untold = s.untold := by
  unfold tellInvite; split <;> simp

@[simp] theorem untold_bindAssignment (l : Line) (a : Assignment) (s : State) :
    (bindAssignment l a s).untold = s.untold := by
  unfold bindAssignment
  dsimp only
  split <;> split <;> simp

@[simp] theorem untold_failAssignment (l : Line) (a : Assignment) (s : State) :
    (failAssignment l a s).untold = s.untold := by
  unfold failAssignment
  split
  · rfl
  · split <;> simp

@[simp] theorem untold_tellAssign (l : Line) (o : ExchangeOutcome) (s : State) :
    (tellAssign l o s).untold = s.untold := by
  unfold tellAssign
  dsimp only
  split
  · split
    · cases o <;> simp
    · rfl
  · rfl

@[simp] theorem untold_tellOwners (l : Line) (x : Exchange) (o : ExchangeOutcome) (stopping : Bool)
    (s : State) : (tellOwners l x o stopping s).untold = s.untold := by
  unfold tellOwners; split <;> simp

/-! ### An outcome is fixed -/

theorem engineAfter_unfixed (p : LineParams) (x : Exchange) (o : ExchangeOutcome) :
    (engineAfter p x o).unfixed = none := by
  unfold engineAfter; split <;> rfl

/-- The exchange's outcome is fixed: its owners know it and its engine is done. -/
theorem untold_fixOutcome (l : Line) (o : ExchangeOutcome) (s : State) :
    (fixOutcome l o s).untold = Function.update s.untold l none := by
  cases hx : (s.line l).engine.unfixed with
  | none =>
    have hl : s.untold l = none := by simp [State.untold, LineBlock.untold, hx]
    rw [fixOutcome_none hx, ← hl, Function.update_eq_self]
  | some x =>
    rw [fixOutcome_some hx, untold_tellOwners, leaveWire_left, State.untold_setLine]
    simp only [LineBlock.left, LineBlock.untold, engineAfter_unfixed, Option.map_none]

theorem LineBlock.left_keeps (b : LineBlock) (x : Exchange) (o : ExchangeOutcome) :
    (b.left x o).Keeps b := ⟨rfl, rfl, rfl, rfl, id⟩

theorem reaches_fixOutcome (l : Line) (o : ExchangeOutcome) (s : State) :
    Reaches s (fixOutcome l o s) := by
  cases hx : (s.line l).engine.unfixed with
  | none => rw [fixOutcome_none hx]
  | some x =>
    have hu : s.untold l = some x.carried := by simp [State.untold, LineBlock.untold, hx]
    have hwire : Moves s.config ⟨leaveWire l x o s, s.untold⟩ := by
      rw [leaveWire_left]
      exact moves_setLine _ l (LineBlock.left_keeps _ x o)
    have htold := moves_tellOwners x o ((s.line l).guard.lineState == .stopping)
      (leaveWire l x o s) hu
    rw [← untold_fixOutcome l o s, ← fixOutcome_some hx] at htold
    exact hwire.trans htold

theorem reaches_endRun (l : Line) (r : StopReason) (s : State) : Reaches s (endRun l r s) := by
  unfold endRun
  split
  · refine Relation.ReflTransGen.trans ?_ (reaches_raiseDiscoveryNotice l _)
    refine Relation.ReflTransGen.trans ?_ (reaches_updScheduler _ l _)
    exact (reaches_releaseClaim l s).trans (reaches_updDiscovery rfl)
  · exact .refl

theorem reaches_endRunPending (l : Line) (r : StopReason) (s : State) :
    Reaches s (endRunPending l r s) := reaches_endRun ..

theorem reaches_enterFaulted (l : Line) (why : FaultReason) (s : State) :
    Reaches s (enterFaulted l why s) :=
  have hfault : Reaches (fixOutcome l .lineFault s)
      ((fixOutcome l .lineFault s).updLine l fun b => b.enterFault why) :=
    reaches_updLine ⟨rfl, rfl, rfl, rfl, id⟩ rfl
  (((reaches_fixOutcome l .lineFault s).trans hfault).trans (reaches_raiseLineNotice l _)).trans
    (reaches_endRunPending l _ _)

theorem reaches_fixContention (l : Line) (s : State) : Reaches s (fixContention l s) := by
  have hfix := reaches_fixOutcome l .contention s
  unfold fixContention
  dsimp only
  split
  · exact hfix.trans (reaches_enterFaulted l _ _)
  · exact hfix

/-! ### Picks and choices -/

theorem untold_beginExchange (l : Line) (x : Exchange) (s : State) :
    (beginExchange l x s).untold = Function.update s.untold l (some x.carried) := by
  rw [beginExchange_eq, State.untold_setLine]
  rfl

theorem moves_beginExchange {s : State} (u : Line → Option Carried) (l : Line) (x : Exchange) :
    Moves ⟨s, u⟩ ⟨beginExchange l x s, u⟩ := by
  rw [beginExchange_eq]
  exact moves_setLine u l ⟨rfl, rfl, rfl, rfl, id⟩

/-- An engine takes the exchange for which a move has made the tables ready. -/
theorem reaches_take {s t : State} {l : Line} {x : Exchange}
    (h : Move s.config ⟨t, Function.update s.untold l (some x.carried)⟩)
    (hu : t.untold = s.untold) : Reaches s (beginExchange l x t) := by
  have hline := moves_beginExchange (s := t) (Function.update s.untold l (some x.carried)) l x
  rw [← hu, ← untold_beginExchange l x t] at h hline
  exact .head h hline

/-- An exchange that carries neither a record nor a slot is handed over. -/
theorem reaches_beginExchange {s : State} {l : Line} {x : Exchange} (h : s.untold l = none)
    (hr : x.carried.record = none) (hk : x.carried.slot = none) :
    Reaches s (beginExchange l x s) := reaches_take (.handOver l _ h hr hk) rfl

theorem reaches_openStep {l : Line} {s : State} (h : s.untold l = none) :
    Reaches s (openStep l s) := by
  unfold openStep
  split
  · exact .refl
  · exact (reaches_updScheduler s l _).trans (reaches_beginExchange (by simpa using h) rfl rfl)

theorem reaches_pickRecord {l : Line} {r : RecordIndex} {s : State} (h : s.untold l = none)
    (hr : r ∈ (s.line l).queued) : Reaches s (pickRecord l r s) :=
  reaches_take (.pickRecord l r (s.record r).target h hr)
    (by rw [State.untold_setRecord, State.untold_updLine rfl])

theorem reaches_pickPoll {l : Line} {s : State} (i : EntryIndex) (h : s.untold l = none) :
    Reaches s (pickPoll l i s) := by
  have hs : Reaches s (s.updScheduler l fun c => { c with walk := i.val + 1, interleaveCount := 0 }) :=
    reaches_updScheduler s l _
  unfold pickPoll
  dsimp only
  cases hk : firstFreeSlot s with
  | none => exact hs.trans (reaches_beginExchange (by simpa using h) rfl rfl)
  | some k =>
    have hfree : (s.slot k).state = .free := by simpa using List.find?_some hk
    refine hs.trans (reaches_take (.reserve l k (s.handleOf i) (by simpa using h) ?_)
      (by simp [reserveSlot]))
    simpa [State.updScheduler_eq] using hfree

/-! ### The order of choice (Table 3-4) -/

/-- The record of a choice stands in a queue of the line. -/
def Choice.record : Choice → Option RecordIndex
  | .urgent r => some r
  | .normal r => some r
  | .lateNormal r => some r
  | _ => none

theorem afterWalk_queued {b : LineBlock} {r : RecordIndex} (h : (afterWalk b).record = some r) :
    r ∈ b.queued := by
  unfold afterWalk at h
  split at h
  · cases h
  · split at h
    · rename_i hn
      cases h
      simp [LineBlock.queued, hn]
    · split at h <;> cases h

theorem afterQueues_queued {l : Line} {s : State} {r : RecordIndex}
    (h : (afterQueues l s).record = some r) : r ∈ (s.line l).queued := by
  unfold afterQueues at h
  split at h
  · cases h
  · exact afterWalk_queued h

theorem orderOfChoice_queued {l : Line} {s : State} {r : RecordIndex}
    (h : (orderOfChoice l s).record = some r) : r ∈ (s.line l).queued := by
  unfold orderOfChoice at h
  dsimp only at h
  split at h
  · rename_i hu
    cases h
    simp [LineBlock.queued, hu]
  · rename_i hu
    split at h
    · cases h
      simp [LineBlock.queued, hu]
    · exact afterQueues_queued h
  · exact afterQueues_queued h

theorem reaches_endCycle (l : Line) (s : State) : Reaches s (endCycle l s) :=
  reaches_updLine ⟨rfl, rfl, rfl, rfl, id⟩ rfl

theorem reaches_walkComplete (l : Line) (s : State) : Reaches s (walkComplete l s) :=
  reaches_updScheduler s l _

theorem untold_endCycle (l : Line) (s : State) : (endCycle l s).untold = s.untold :=
  State.untold_updLine rfl

theorem State.queued_updScheduler (s : State) (l : Line) (f : Scheduler → Scheduler) :
    ((s.updScheduler l f).line l).queued = (s.line l).queued := by
  simp [State.updScheduler_eq, LineBlock.queued]

theorem reaches_applyChoice {l : Line} {c : Choice} {s : State} (h : s.untold l = none)
    (hr : ∀ r, c.record = some r → r ∈ (s.line l).queued) : Reaches s (applyChoice l c s) := by
  have hsched (f : Scheduler → Scheduler) : Reaches s (s.updScheduler l f) :=
    reaches_updScheduler s l f
  have hpick {f : Scheduler → Scheduler} {r : RecordIndex} (hc : c.record = some r) :
      Reaches s (pickRecord l r (s.updScheduler l f)) :=
    (hsched f).trans (reaches_pickRecord (by simpa using h)
      ((State.queued_updScheduler s l f).symm ▸ hr r hc))
  cases c with
  | urgent r => exact reaches_pickRecord h (hr r rfl)
  | normal r => exact hpick rfl
  | poll i => exact reaches_pickPoll i h
  | discovery =>
    exact ((hsched _).trans (reaches_updScheduler _ l _)).trans
      (reaches_openStep (by simpa [walkComplete] using h))
  | lateNormal r => exact hpick rfl
  | endCycle => exact reaches_endCycle l s
  | wait => exact reaches_walkComplete l s

theorem LineBlock.entitled_iff (b : LineBlock) :
    b.entitled = true ↔ b.scheduler.running = true ∧ b.guard.lineState = .running ∧
      b.engine = .idle ∧ b.scheduler.stepInProgress = false := by
  simp [LineBlock.entitled, and_assoc]

theorem reaches_choose (l : Line) (s : State) : Reaches s (choose l s) := by
  unfold choose
  split
  · rename_i h
    have hidle : s.untold l = none := by
      obtain ⟨-, -, hengine, -⟩ := (s.line l).entitled_iff.1 h
      exact State.untold_idle hengine
    split
    · exact (reaches_endCycle l s).trans
        (reaches_applyChoice (by rwa [untold_endCycle]) fun r => orderOfChoice_queued)
    · exact reaches_applyChoice hidle fun r => orderOfChoice_queued
  · exact .refl

/-! ### A step of discovery goes on -/

theorem reaches_sendAssign {l : Line} {s : State} (a : Assignment) (x : Identity)
    (h : s.untold l = none) : Reaches s (sendAssign l a x s) :=
  (reaches_updDiscovery rfl).trans (reaches_beginExchange (by simpa using h) rfl rfl)

theorem firstFreeAddress_not_inUse {l : Line} {s : State} {a : Address}
    (h : firstFreeAddress l s = some a) : addressInUse l a s = false := by
  have := List.find?_some h
  simp only [Bool.and_eq_true, Bool.not_eq_true'] at this
  exact this.2

theorem reaches_claim {l : Line} {s : State} {i : EntryIndex} {a : Address} (x : Identity)
    (hi : firstAllocatable s = some i) (ha : firstFreeAddress l s = some a) :
    Reaches s (s.setNode i ((s.node i).claim l a x)) := by
  have halloc : (s.node i).allocatable = true :=
    List.find?_some (p := fun i => (s.node i).allocatable) hi
  obtain ⟨hfree, -, -⟩ := (NodeEntry.allocatable_iff _).1 halloc
  exact .of_move (.fill i _ ⟨halloc, rfl, .inr rfl, fun _ => hfree, fun h _ => ⟨h, hfree⟩⟩
    (.of_le le_rfl) (firstFreeAddress_not_inUse ha)) (by simp)

theorem reaches_decideAssignment {l : Line} {s : State} (x : Identity) (h : s.untold l = none) :
    Reaches s (decideAssignment l x s) := by
  unfold decideAssignment
  split
  · exact reaches_sendAssign _ x h
  · split
    · exact reaches_endRun l _ s
    · rename_i i hi
      split
      · exact reaches_endRun l _ s
      · rename_i a ha
        exact (reaches_claim x hi ha).trans (reaches_sendAssign _ x (by simpa using h))

theorem reaches_endStep (l : Line) (s : State) : Reaches s (endStep l s) :=
  reaches_updScheduler s l _

theorem reaches_continueStep {l : Line} {s : State} (c : Carried) (h : s.untold l = none) :
    Reaches s (continueStep l c s) := by
  unfold continueStep
  dsimp only
  split
  · exact reaches_endRun l _ s
  · split
    · exact reaches_endRun l _ s
    · exact reaches_endRun l _ s
    · split
      · exact reaches_decideAssignment _ h
      · split
        · exact reaches_sendAssign _ _ h
        · exact reaches_endStep l s
      · exact reaches_endStep l s

theorem reaches_exchangeEnded {l : Line} {s : State} (c : Carried) (gone : Bool)
    (h : s.untold l = none) : Reaches s (exchangeEnded l c gone s) := by
  unfold exchangeEnded
  dsimp only
  split
  · cases gone with
    | false => exact reaches_continueStep c h
    | true =>
      have hforget : Reaches s (forgetAssignment l s) := reaches_updDiscovery rfl
      exact hforget.trans (reaches_continueStep c (by simpa [forgetAssignment] using h))
  · exact .refl

/-! ### The events of a line -/

theorem moves_pollTransmitted (u : Line → Option Carried) (c : Carried) (s : State) :
    Moves ⟨s, u⟩ ⟨pollTransmitted c s, u⟩ := by
  unfold pollTransmitted
  split
  · exact moves_morePending u _ false
  · exact .refl

theorem reaches_pollTransmitted (c : Carried) (s : State) : Reaches s (pollTransmitted c s) :=
  .of_moves (moves_pollTransmitted _ c s) (by unfold pollTransmitted; split <;> simp)

section UnfixedExchange
variable {l : Line} {x : Exchange} {s : State} (h : (s.line l).engine.unfixed = some x)
include h

theorem reaches_openWindow : Reaches s (openWindow l x s) := by
  refine (reaches_releaseDriver l s).trans (reaches_setEngine (x := x) ?_ rfl)
  rw [releaseDriver_eq]
  simpa using h

theorem reaches_endFrameSent : Reaches s (endFrameSent l x s) := by
  unfold endFrameSent
  split
  · exact reaches_fixOutcome l _ s
  · exact (reaches_openWindow h).trans (reaches_pollTransmitted _ _)

theorem reaches_headCharacter (window : Timer) (c : ReceivedCharacter) :
    Reaches s (headCharacter l x window c s) := by
  unfold headCharacter
  split
  · split
    · exact reaches_setEngine h rfl
    · split
      · exact reaches_fixOutcome l _ s
      · exact .refl
  · exact reaches_fixOutcome l _ s
  · exact reaches_fixOutcome l _ s

theorem reaches_collectCharacter (got : List Byte) (c : ReceivedCharacter) :
    Reaches s (collectCharacter l x got c s) := by
  unfold collectCharacter
  dsimp only
  split
  · exact reaches_fixOutcome l _ s
  · split
    · exact reaches_fixOutcome l _ s
    · split
      · exact reaches_fixOutcome l _ s
      · exact reaches_setEngine h rfl

end UnfixedExchange

theorem reaches_sendFrame (l : Line) (s : State) : Reaches s (sendFrame l s) := by
  unfold sendFrame
  split
  · rename_i h
    split
    · exact reaches_endFrameSent (by simp [h, Engine.unfixed])
    · split
      · exact reaches_releaseDriver l s
      · exact .refl
  · exact .refl

theorem reaches_echoCharacter {l : Line} {x : Exchange} {s : State}
    (h : (s.line l).engine.unfixed = some x) (echoed : Nat) (c : ReceivedCharacter) :
    Reaches s (echoCharacter l x echoed c s) := by
  unfold echoCharacter
  split
  · dsimp only
    split
    · split
      · exact reaches_setEngine h rfl
      · exact (reaches_setEngine h rfl).trans (reaches_sendFrame l _)
    · split
      · exact reaches_setEngine h rfl
      · exact reaches_fixContention l s
  · exact .refl

theorem reaches_engineCharacter (l : Line) (c : ReceivedCharacter) (s : State) :
    Reaches s (engineCharacter l c s) := by
  unfold engineCharacter
  split
  · exact .refl
  · rename_i h
    split
    · exact .refl
    · exact reaches_echoCharacter (by simp [h, Engine.unfixed]) _ c
  · rename_i h
    exact reaches_headCharacter (by simp [h, Engine.unfixed]) _ c
  · rename_i h
    exact reaches_collectCharacter (by simp [h, Engine.unfixed]) _ c
  · exact .refl

theorem reaches_receiveCharacter (l : Line) (bits : Samples 10) (s : State) :
    Reaches s (receiveCharacter l bits s) := by
  unfold receiveCharacter
  dsimp only
  split
  · have hcount (c : ReceivedCharacter) : Reaches s (countCharacter l c s) :=
      reaches_updLine ⟨rfl, rfl, rfl, rfl, id⟩ rfl
    exact (hcount _).trans (reaches_engineCharacter l _ _)
  · exact .refl

theorem reaches_completeReply (l : Line) (bits : Samples 10) (s : State) :
    Reaches s (completeReply l bits s) := by
  unfold completeReply
  split
  · split
    · exact reaches_receiveCharacter l bits s
    · exact .refl
  · exact .refl

theorem reaches_contend (l : Line) (s : State) : Reaches s (contend l s) := by
  unfold contend
  split
  · exact reaches_fixContention l s
  · exact .refl

theorem reaches_expireWindow (l : Line) (s : State) : Reaches s (expireWindow l s) := by
  unfold expireWindow
  dsimp only
  split
  · rename_i h
    split
    · exact reaches_setEngine (by rw [h]; rfl) rfl
    · exact reaches_fixOutcome l _ s
  · exact .refl

theorem reaches_exceedGap (l : Line) (s : State) : Reaches s (exceedGap l s) := by
  unfold exceedGap
  split
  · exact reaches_fixOutcome l _ s
  · exact .refl

theorem reaches_goDown (l : Line) (s : State) : Reaches s (s.updLine l LineBlock.goDown) :=
  reaches_updLine ⟨rfl, rfl, rfl, rfl, id⟩ rfl

theorem reaches_completeStop (l : Line) (s : State) : Reaches s (completeStop l s) := by
  have hdown := (reaches_goDown l s).trans (reaches_raiseLineNotice l _)
  unfold completeStop
  dsimp only
  split
  · exact hdown.trans (reaches_endRun l _ _)
  · exact hdown.trans (reaches_endRunPending l _ _)

theorem reaches_expireGuard (l : Line) (s : State) : Reaches s (expireGuard l s) := by
  unfold expireGuard
  split
  · rename_i x o d h
    have hfinish := reaches_finishExchange x.carried (State.untold_guard h)
    have hidle : (finishExchange l x.carried s).untold l = none := by
      rw [untold_finishExchange, Function.update_self]
    dsimp only
    split
    · exact (hfinish.trans (reaches_exchangeEnded _ _ hidle)).trans (reaches_choose l _)
    · exact hfinish.trans (reaches_completeStop l _)
    · exact hfinish
  · exact .refl

theorem reaches_completeFromQueue {r : RecordIndex} {s : State} (result : TransferResult)
    (h : (s.record r).state = .queued) : Reaches s (completeFromQueue r result s) :=
  .of_move (.completeFromQueue r result h) (by simp)

theorem reaches_expireDeadline (r : RecordIndex) (s : State) : Reaches s (expireDeadline r s) := by
  unfold expireDeadline
  dsimp only
  split
  · rename_i h
    simp only [Bool.and_eq_true, beq_iff_eq] at h
    exact reaches_completeFromQueue _ h.1
  · exact .refl

theorem reaches_elapseFloor (l : Line) (s : State) : Reaches s (elapseFloor l s) := by
  unfold elapseFloor
  split
  · exact (reaches_updScheduler s l _).trans (reaches_choose l _)
  · exact .refl

/-! ### A line's receiver and guard -/

theorem Engine.startSeen_unfixed (e : Engine) : e.startSeen.unfixed = e.unfixed := by
  cases e <;> rfl

theorem reaches_fromStart {s : State} {l : Line} {f : LineBlock → LineBlock}
    (h : (f (s.line l)).Keeps (s.line l)) (hu : (f (s.line l)).untold = (s.line l).untold) :
    Reaches s (s.updLine l (LineBlock.fromStart f)) := by
  apply reaches_updLine
  · unfold LineBlock.fromStart
    split
    · exact h
    · exact .rfl
  · unfold LineBlock.fromStart
    split
    · exact hu
    · rfl

theorem reaches_verifyStart (l : Line) (noisy : Bool) (s : State) :
    Reaches s (verifyStart l noisy s) :=
  reaches_fromStart ⟨rfl, rfl, rfl, rfl, id⟩
    (by simp [LineBlock.untold, Engine.startSeen_unfixed])

theorem reaches_rejectStart (l : Line) (s : State) : Reaches s (rejectStart l s) :=
  reaches_fromStart ⟨rfl, rfl, rfl, rfl, id⟩ rfl

theorem reaches_armReceiver (l : Line) (s : State) : Reaches s (armReceiver l s) := by
  rw [armReceiver]
  apply reaches_updLine
  · split
    · exact ⟨rfl, rfl, rfl, rfl, id⟩
    · exact .rfl
  · split <;> rfl

theorem reaches_endWakeBreak (l : Line) (s : State) : Reaches s (endWakeBreak l s) := by
  rw [endWakeBreak]
  apply reaches_updLine
  · split
    · exact ⟨rfl, rfl, rfl, rfl, id⟩
    · exact .rfl
  · split <;> rfl

theorem reaches_completeQuiet (l : Line) (s : State) : Reaches s (completeQuiet l s) := by
  have hrun : Reaches s (s.updLine l fun b => b.enterRunning.startScheduler) :=
    reaches_updLine ⟨rfl, rfl, rfl, rfl, id⟩ rfl
  unfold completeQuiet
  dsimp only
  split
  · exact (hrun.trans (reaches_raiseLineNotice l _)).trans (reaches_choose l _)
  · exact .refl

theorem reaches_completeRecoveryWatch (l : Line) (s : State) :
    Reaches s (completeRecoveryWatch l s) := by
  have hstart : Reaches s (s.updLine l fun b => b.enterStarting .recovery) :=
    reaches_updLine ⟨rfl, rfl, rfl, rfl, id⟩ rfl
  unfold completeRecoveryWatch
  dsimp only
  split
  · exact hstart.trans (reaches_raiseLineNotice l _)
  · exact .refl

theorem reaches_spoilQuiet (l : Line) (s : State) : Reaches s (spoilQuiet l s) := by
  unfold spoilQuiet
  dsimp only
  split
  · exact reaches_enterFaulted l _ s
  · exact .refl

theorem reaches_stickDominant (l : Line) (s : State) : Reaches s (stickDominant l s) := by
  unfold stickDominant
  dsimp only
  split
  · exact reaches_enterFaulted l _ s
  · exact .refl

theorem reaches_spoilRecoveryWatch (l : Line) (s : State) : Reaches s (spoilRecoveryWatch l s) := by
  unfold spoilRecoveryWatch
  dsimp only
  split
  · exact reaches_enterFaulted l _ s
  · exact .refl

theorem reaches_beginRecovery (l : Line) (s : State) : Reaches s (beginRecovery l s) := by
  have hwatch : Reaches s (s.updLine l LineBlock.enterRecovering) :=
    reaches_updLine ⟨rfl, rfl, rfl, rfl, id⟩ rfl
  have hnote := hwatch.trans (reaches_raiseLineNotice l _)
  unfold beginRecovery
  dsimp only
  split
  · exact hnote.trans (reaches_enterFaulted l _ _)
  · exact hnote

theorem reaches_finishStop (l : Line) (s : State) : Reaches s (finishStop l s) :=
  ((reaches_goDown l s).trans (reaches_abortQueued l _)).trans (reaches_raiseLineNotice l _)

theorem reaches_expireHold (l : Line) (s : State) : Reaches s (expireHold l s) := by
  unfold expireHold
  dsimp only
  split
  · split
    · exact (reaches_cutGuard l s).trans (reaches_finishStop l _)
    · exact (reaches_cutGuard l s).trans (reaches_beginRecovery l _)
  · exact .refl

end Sys2Proof.Machine

/-! What requests, bytes, messages and resets do, as moves; and from it every command as moves. -/

namespace Sys2Proof.Machine

/-! ### The fields of a body, for any property of the state that a request leaves -/

theorem withLine_fst {P : State → Prop} {body : List Byte} {s : State} {f : Line → Answer}
    (h : P s) (hf : ∀ l, P (f l).1) : P (withLine body s f).1 := by
  unfold withLine
  split
  · split
    · exact hf _
    · exact h
  · exact h

theorem withHandle_fst {P : State → Prop} {body : List Byte} {s : State} {f : Handle → Answer}
    (h : P s) (hf : ∀ x, isStale x s = false → P (f x).1) : P (withHandle body s f).1 := by
  unfold withHandle
  split
  · split
    · rename_i x hx
      obtain ⟨-, hstale⟩ := Option.filter_eq_some_iff.1 hx
      exact hf x (by simpa using hstale)
    · exact h
  · exact h

theorem withTag_fst {P : State → Prop} {body : List Byte} {s : State} {f : RecordIndex → Answer}
    (h : P s) (hf : ∀ r, P (f r).1) : P (withTag body s f).1 := by
  unfold withTag
  split
  · split
    · exact hf _
    · exact h
  · exact h

theorem withNothing_fst {P : State → Prop} {body : List Byte} {s : State} {a : Answer}
    (h : P s) (ha : P a.1) : P (withNothing body s a).1 := by
  unfold withNothing
  split
  · exact ha
  · exact h

/-! ### Requests on the part and its lines -/

theorem reaches_requestIdentify (body : List Byte) (s : State) :
    Reaches s (requestIdentify body s).1 := withNothing_fst .refl .refl

theorem reaches_requestCredit (body : List Byte) (s : State) :
    Reaches s (requestCredit body s).1 := by
  unfold requestCredit
  split
  · split
    · exact .refl
    · split
      · exact .refl
      · exact .of_move (.credit _) rfl
  · exact .refl

theorem reaches_requestResetPart (body : List Byte) (s : State) :
    Reaches s (requestResetPart body s).1 := withNothing_fst .refl (.of_move .awaitReset rfl)

theorem LineBlock.configure_keeps (b : LineBlock) {p : LineParams} (h : p.inRange = true) :
    (b.configure p).Keeps b := ⟨rfl, rfl, rfl, rfl, fun _ => h⟩

theorem reaches_configure {l : Line} {p : LineParams} (h : p.inRange = true) (s : State) :
    Reaches s (s.updLine l fun b => b.configure p) :=
  reaches_updLine ((s.line l).configure_keeps h) rfl

theorem reaches_requestConfigureLine (body : List Byte) (s : State) :
    Reaches s (requestConfigureLine body s).1 := by
  unfold requestConfigureLine
  split
  · split
    · exact .refl
    · dsimp only
      split
      · exact .refl
      · split
        · rename_i hp
          exact reaches_configure hp s
        · exact .refl
  · exact .refl

theorem reaches_requestQueryLine (body : List Byte) (s : State) :
    Reaches s (requestQueryLine body s).1 := by
  unfold requestQueryLine
  split
  · split
    · rw [accept_fst]
      split
      · exact .of_moves (moves_updCounters _ _ _) (by simp)
      · exact .refl
    · exact .refl
  · exact .refl

theorem NodeEntry.lineStarted_follows {e : NodeEntry} (h : e.held = true) :
    e.lineStarted.Follows e :=
  .of_held (by simpa [NodeEntry.held] using h) rfl rfl rfl rfl id fun _ => (nomatch ·)

/-- Held entries of the line are started, one after another, each once. -/
theorem reaches_startEntries (chosen : List EntryIndex) (s : State) (hd : chosen.Nodup)
    (h : ∀ i ∈ chosen, (s.node i).held = true) :
    Reaches s (chosen.foldl (fun t i => t.setNode i (t.node i).lineStarted) s) := by
  induction chosen generalizing s with
  | nil => exact .refl
  | cons i rest ih =>
    obtain ⟨hi, hrest⟩ := List.nodup_cons.1 hd
    have hfirst : Reaches s (s.setNode i (s.node i).lineStarted) :=
      reaches_setNode (NodeEntry.lineStarted_follows (h i (by simp))) (.of_le (Nat.zero_le _))
    refine hfirst.trans (ih _ hrest fun j hj => ?_)
    rw [State.node_setNode, if_neg (by rintro rfl; exact hi hj)]
    exact h j (List.mem_cons_of_mem _ hj)

theorem reaches_resetEntries (l : Line) (s : State) : Reaches s (resetEntries l s).1 := by
  refine reaches_startEntries _ s ((List.nodup_finRange 64).filter _) fun i hi => ?_
  have hstart : (s.node i).startsWith l = true := (List.mem_filter.1 hi).2
  simp only [NodeEntry.startsWith, Bool.and_eq_true] at hstart
  exact hstart.1.2

theorem reaches_requestStartLine (body : List Byte) (s : State) :
    Reaches s (requestStartLine body s).1 := by
  refine withLine_fst .refl fun l => ?_
  have hstart : Reaches s (s.updLine l LineBlock.start) := reaches_updLine ⟨rfl, rfl, rfl, rfl, id⟩ rfl
  split
  · exact .refl
  · exact hstart.trans (reaches_resetEntries l _)

theorem reaches_stopRun (l : Line) (s : State) : Reaches s (stopRun l s) := by
  unfold stopRun
  dsimp only
  split
  · refine reaches_updDiscovery ?_
    split <;> rfl
  · exact reaches_endRunPending l _ s

theorem reaches_stopRunning (l : Line) (s : State) : Reaches s (stopRunning l s).1 := by
  have hstop : Reaches s (s.updLine l LineBlock.enterStopping) :=
    reaches_updLine ⟨rfl, rfl, rfl, rfl, id⟩ rfl
  exact (hstop.trans (reaches_abortQueued l _)).trans (reaches_stopRun l _)

theorem reaches_stopAtOnce (l : Line) (s : State) : Reaches s (stopAtOnce l s).1 :=
  (((reaches_cutGuard l s).trans (reaches_goDown l _)).trans (reaches_abortQueued l _)).trans
    (reaches_endRunPending l _ _)

theorem reaches_requestStopLine (body : List Byte) (s : State) :
    Reaches s (requestStopLine body s).1 := by
  refine withLine_fst .refl fun l => ?_
  dsimp only
  split
  · exact .refl
  · exact .refl
  · split
    · exact reaches_stopAtOnce l s
    · exact reaches_stopRunning l s
  · exact reaches_stopAtOnce l s

theorem reaches_abortExchange (l : Line) (s : State) : Reaches s (abortExchange l s).1 := by
  unfold abortExchange
  split
  · exact (reaches_finishTarget _ s).trans (reaches_fixOutcome l _ _)
  · exact reaches_cutGuard l s

theorem reaches_requestResetLine (body : List Byte) (s : State) :
    Reaches s (requestResetLine body s).1 := by
  refine withLine_fst .refl fun l => ?_
  have hdown (t : State) : Reaches t (t.updLine l LineBlock.resetDown) :=
    reaches_updLine ⟨rfl, rfl, rfl, rfl, id⟩ rfl
  exact (((reaches_abortExchange l s).trans (reaches_abortQueued l _)).trans (hdown _)).trans
    (reaches_endRunPending l _ _)

/-! ### Requests on nodes -/

theorem reaches_addNode (line address pollClass : Byte) (x : Option Identity) (s : State) :
    Reaches s (addNode line address pollClass x s).1 := by
  unfold addNode
  split
  · split
    · exact .refl
    · split
      · exact .refl
      · rename_i huse
        split
        · exact .refl
        · split
          · exact .refl
          · rename_i i hi
            have halloc : (s.node i).allocatable = true :=
              List.find?_some (p := fun i => (s.node i).allocatable) hi
            exact .of_move (.fill i _ ⟨halloc, rfl, .inl rfl, (nomatch ·), (nomatch ·)⟩
              (.of_le (Nat.zero_le _)) (Bool.eq_false_iff.2 huse)) (by simp)
  · exact .refl

theorem reaches_requestAddNode (body : List Byte) (s : State) :
    Reaches s (requestAddNode body s).1 := by
  unfold requestAddNode
  split
  · exact reaches_addNode _ _ _ _ s
  · exact reaches_addNode _ _ _ _ s
  · exact .refl

theorem isStale_eq_false_iff (h : Handle) (s : State) :
    isStale h s = false ↔ (s.node h.index).generation = h.generation ∧
      (s.node h.index).state ≠ .free ∧ (s.node h.index).removalPending = false := by
  simp [isStale, NodeEntry.held, and_assoc]

theorem NodeEntry.removed_follows {e : NodeEntry} (h : e.state ≠ .free) (deferred : Bool) :
    (e.removed deferred).Follows e := by
  cases deferred with
  | true => exact .of_held h rfl rfl rfl rfl id fun _ => h
  | false => exact .of_held h rfl rfl rfl rfl id (nomatch ·)

theorem reaches_completeAimedAt (l : Line) (i : EntryIndex) (result : TransferResult) (s : State) :
    Reaches s (completeAimedAt l i result s).1 := reaches_completeQueued ..

theorem reaches_requestRemoveNode (body : List Byte) (s : State) :
    Reaches s (requestRemoveNode body s).1 := by
  refine withHandle_fst .refl fun h hstale => ?_
  obtain ⟨-, hheld, -⟩ := (isStale_eq_false_iff h s).1 hstale
  have hm : s.MissFits ((s.node h.index).removed (inFlightTo h.index s)) (s.node h.index) := by
    cases inFlightTo h.index s <;> exact .of_le le_rfl
  have hremoved := reaches_setNode (NodeEntry.removed_follows hheld (inFlightTo h.index s)) hm
  exact hremoved.trans (reaches_completeAimedAt _ h.index _ _)

theorem NodeEntry.setNode_follows {e : NodeEntry} (h : e.state ≠ .free)
    (hr : e.removalPending = false) (c : Option PollClass) (a : NodeAction) :
    (e.setNode c a).Follows e := by
  cases a with
  | none => exact .of_held h rfl rfl rfl rfl id fun _ => h
  | park | unpark => exact .of_held h rfl rfl rfl rfl id fun h' => absurd (hr.symm.trans h') (by decide)

theorem reaches_requestSetNode (body : List Byte) (s : State) :
    Reaches s (requestSetNode body s).1 := by
  unfold requestSetNode
  split
  · split
    · rename_i c a _ _
      split
      · exact .refl
      · split
        · exact .refl
        · rename_i h hh
          obtain ⟨-, hstale⟩ := Option.filter_eq_some_iff.1 hh
          obtain ⟨-, hheld, hr⟩ := (isStale_eq_false_iff h s).1 (by simpa using hstale)
          dsimp only
          split
          · exact .refl
          · have hm : s.MissFits ((s.node h.index).setNode c a) (s.node h.index) := by
              cases a with
              | none | park => exact .of_le le_rfl
              | unpark => exact .of_le (Nat.zero_le _)
            exact reaches_setNode (NodeEntry.setNode_follows hheld hr c a) hm
    · exact .refl
  · exact .refl

theorem reaches_requestQueryNode (body : List Byte) (s : State) :
    Reaches s (requestQueryNode body s).1 := withHandle_fst .refl fun _ _ => .refl

theorem reaches_requestListNodes (body : List Byte) (s : State) :
    Reaches s (requestListNodes body s).1 := withLine_fst .refl fun _ => .refl

/-! ### Requests on transfers and discovery -/

theorem holderOf_none {tag : Word16} {s : State} (h : ¬ (holderOf tag s).isSome = true)
    (q : RecordIndex) (hq : (s.record q).state ≠ .free) : (s.record q).tag ≠ tag := by
  rw [Option.not_isSome_iff_eq_none, holderOf, recordIndexes, List.find?_eq_none] at h
  simpa [hq] using h q (List.mem_finRange q)

theorem reaches_submit (x : SubmitFields) (s : State) : Reaches s (submit x s).1 := by
  unfold submit
  split
  · exact .refl
  · exact .refl
  · split
    · exact .refl
    · rename_i r hr
      split
      · exact .refl
      · rename_i htag
        split
        · exact .refl
        · rename_i target _
          have hfree : (s.record r).state = .free := by simpa using List.find?_some hr
          have hqueue : Reaches s (queueTail r (s.setRecord r (x.record target))) :=
            .of_move (.submit r _ hfree rfl (holderOf_none htag)) (by simp)
          exact hqueue.trans (reaches_choose _ _)

theorem reaches_requestSubmit (body : List Byte) (s : State) :
    Reaches s (requestSubmit body s).1 := by
  unfold requestSubmit
  split
  · split
    · exact .refl
    · split
      · exact .refl
      · exact reaches_submit _ s
  · exact .refl

theorem reaches_requestCancel (body : List Byte) (s : State) :
    Reaches s (requestCancel body s).1 := by
  refine withTag_fst .refl fun r => ?_
  split
  · rename_i h
    exact reaches_completeFromQueue _ h
  · exact .refl
  · exact .refl

theorem reaches_requestQueryTransfer (body : List Byte) (s : State) :
    Reaches s (requestQueryTransfer body s).1 := withTag_fst .refl fun _ => .refl

theorem reaches_requestDiscover (body : List Byte) (s : State) :
    Reaches s (requestDiscover body s).1 := by
  refine withLine_fst .refl fun l => ?_
  dsimp only
  split
  · exact .refl
  · split
    · exact .refl
    · have hstart : Reaches s (s.updDiscovery l Discovery.started) := reaches_updDiscovery rfl
      exact hstart.trans (reaches_choose l _)

theorem reaches_requestStopDiscovery (body : List Byte) (s : State) :
    Reaches s (requestStopDiscovery body s).1 := by
  refine withLine_fst .refl fun l => ?_
  dsimp only
  split
  · exact .refl
  · split
    · have hpending : Reaches s (s.updDiscovery l fun d => { d with stopPending := .cancelled }) :=
        reaches_updDiscovery rfl
      exact hpending
    · exact reaches_endRun l _ s

theorem reaches_answerTo (kind : Byte) (body : List Byte) (s : State) :
    Reaches s (answerTo kind body s).1 := by
  unfold answerTo
  split
  · exact reaches_requestIdentify body s
  · exact reaches_requestConfigureLine body s
  · exact reaches_requestQueryLine body s
  · exact reaches_requestStartLine body s
  · exact reaches_requestStopLine body s
  · exact reaches_requestResetLine body s
  · exact reaches_requestAddNode body s
  · exact reaches_requestRemoveNode body s
  · exact reaches_requestSetNode body s
  · exact reaches_requestQueryNode body s
  · exact reaches_requestListNodes body s
  · exact reaches_requestSubmit body s
  · exact reaches_requestCancel body s
  · exact reaches_requestQueryTransfer body s
  · exact reaches_requestDiscover body s
  · exact reaches_requestStopDiscovery body s
  · exact reaches_requestCredit body s
  · exact reaches_requestResetPart body s
  · exact .refl

/-! ### What moves within the part leave of the link, the RESET pin and the commands -/

/-- The link is as it was, but for its credits and a reset that has become pending. -/
structure HostLink.Waits (new old : HostLink) : Prop where
  inbox : new.inbox = old.inbox
  transmitter : new.transmitter = old.transmitter
  announcePending : new.announcePending = old.announcePending
  notice : new.notice = old.notice
  parser : new.parser = old.parser
  gapTimer : new.gapTimer = old.gapTimer
  resetPending : old.resetPending = true → new.resetPending = true

theorem HostLink.Waits.rfl {k : HostLink} : k.Waits k :=
  ⟨.refl _, .refl _, .refl _, .refl _, .refl _, .refl _, id⟩

theorem HostLink.Waits.of_eq {k k' : HostLink} (h : k = k') : k.Waits k' := h ▸ .rfl

theorem HostLink.Waits.trans {a b c : HostLink} (h : a.Waits b) (h' : b.Waits c) : a.Waits c :=
  ⟨h.inbox.trans h'.inbox, h.transmitter.trans h'.transmitter,
    h.announcePending.trans h'.announcePending, h.notice.trans h'.notice, h.parser.trans h'.parser,
    h.gapTimer.trans h'.gapTimer, fun x => h.resetPending (h'.resetPending x)⟩

theorem State.link_updLine (s : State) (l : Line) (f : LineBlock → LineBlock) :
    (s.updLine l f).link = s.link := by rw [State.updLine_eq, State.link_setLine]

theorem link_queueTail (r : RecordIndex) (s : State) : (queueTail r s).link = s.link :=
  State.link_updLine ..

theorem link_tellRecord (r : RecordIndex) (o : ExchangeOutcome) (gone lost stopping : Bool)
    (s : State) : (tellRecord r o gone lost stopping s).link = s.link := by
  rw [tellRecord_eq]
  split
  · simp
  · simp [queueTail, State.link_updLine]
  · simp [queueHead, State.link_updLine]

theorem link_waits_of_move {c d : Config} (h : Move c d) : d.state.link.Waits c.state.link := by
  cases h with
  | line l b _ => exact .of_eq (by simp)
  | node i e _ _ => exact .of_eq (by simp)
  | fill i e _ _ _ => exact .of_eq (by simp)
  | nodeNotice i => exact .of_eq (by simp [raiseNodeNotice_eq])
  | lineNotice l => exact .of_eq (by simp [raiseLineNotice_eq])
  | runNotice l => exact .of_eq (by simp [raiseDiscoveryNotice_eq])
  | completeQueued l p result =>
    obtain ⟨-, -, -, -, -, -, -, hlink, -⟩ := completeQueued_spec l p result ‹State›
    exact .of_eq hlink
  | completeFromQueue r result _ =>
    exact .of_eq (by simp [completeFromQueue, completeRecord_eq, State.link_updLine])
  | submit r x _ _ _ => exact .of_eq (by simp [link_queueTail])
  | pickRecord l r t _ _ => exact .of_eq (by simp [State.link_updLine])
  | reserve l k h _ _ => exact .of_eq (by simp [reserveSlot])
  | handOver l c _ _ _ => exact .rfl
  | told l c _ _ _ => exact .rfl
  | tellRecord l r t o gone lost stopping _ => exact .of_eq (link_tellRecord ..)
  | freeSlot l h k _ => exact .of_eq (by simp [freeSlot])
  | fillSlot l h k payload _ => exact .of_eq (by simp [enqueue_withReports])
  | credit n => exact ⟨rfl, rfl, rfl, rfl, rfl, rfl, id⟩
  | awaitReset => exact ⟨rfl, rfl, rfl, rfl, rfl, rfl, fun _ => rfl⟩

theorem Reaches.link_waits {s t : State} (h : Reaches s t) : t.link.Waits s.link :=
  Moves.keep (P := fun c => c.state.link.Waits s.link) (fun hm hc => (link_waits_of_move hm).trans hc) h .rfl

end Sys2Proof.Machine

/-! The host link's moves and the resets, and every command as moves. -/

namespace Sys2Proof.Machine

/-! ### Runs of moves -/

/-- Moves within the part and of the host link, one after another. -/
abbrev Runs : Config → Config → Prop := Relation.ReflTransGen fun c d => Move c d ∨ LinkMove c d

/-- What every move keeps, runs keep. -/
theorem Runs.keep {P : Config → Prop} (hM : ∀ {c d}, Move c d → P c → P d)
    (hL : ∀ {c d}, LinkMove c d → P c → P d) {c d : Config} (h : Runs c d) (hc : P c) : P d := by
  induction h with
  | refl => exact hc
  | tail _ hm ih => exact hm.elim (hM · ih) (hL · ih)

/-- From the part between two commands to the part between two commands. -/
abbrev RunsTo (s t : State) : Prop := Runs s.config t.config

theorem Reaches.runs {s t : State} (h : Reaches s t) : RunsTo s t :=
  Relation.ReflTransGen.mono (fun _ _ => Or.inl) _ _ h

theorem RunsTo.of_linkMove {s t : State} (h : LinkMove s.config ⟨t, s.untold⟩)
    (hu : t.untold = s.untold) : RunsTo s t := by
  rw [← hu] at h
  exact .single (.inr h)

theorem runs_updLink {s : State} {f : HostLink → HostLink} (h : (f s.link).Keeps s.link) :
    RunsTo s (s.updLink f) := .of_linkMove (.link f h) (by simp)

theorem runs_raiseLinkNotice (f : LinkNotice → LinkNotice) (s : State) :
    RunsTo s (raiseLinkNotice f s) := .of_linkMove (.notice f) (by simp)

/-! ### The inbox (R161 to R163) -/

/-- The replies of the SENDING entries. -/
def sendingReplies (inbox : List InboxEntry) : List Message :=
  inbox.filterMap fun e => e.state.sendingReply

/-- The oldest READY entry, with what is older and newer (R163). -/
theorem takeOldestReady_some {inbox taken : List InboxEntry} {m : Message}
    (h : takeOldestReady inbox = some (m, taken)) :
    ∃ (older : List InboxEntry) (e : InboxEntry) (newer : List InboxEntry),
      inbox = older ++ e :: newer ∧ e.state = .ready m ∧
        taken = older ++ { e with state := .sending m } :: newer := by
  induction inbox generalizing taken with
  | nil => cases h
  | cons e rest ih =>
    unfold takeOldestReady at h
    split at h
    · rename_i hm
      cases h
      exact ⟨[], e, rest, rfl, hm, rfl⟩
    · cases ht : takeOldestReady rest with
      | none => simp [ht] at h
      | some p =>
        simp only [ht, Option.map_some, Option.some.injEq, Prod.mk.injEq] at h
        obtain ⟨hm, rfl⟩ := h
        obtain ⟨older, e', newer, h1, h2, h3⟩ := ih (taken := p.2) (by rw [ht, ← hm])
        exact ⟨e :: older, e', newer, by simp [h1], h2, by simp [h3]⟩

/-- Freeing the first SENDING entry takes the first reply from those in transmission. -/
theorem sendingReplies_eraseP (inbox : List InboxEntry) :
    sendingReplies (inbox.eraseP fun e => e.state.isSending) = (sendingReplies inbox).tail := by
  induction inbox with
  | nil => rfl
  | cons e rest ih =>
    cases hs : e.state with
    | sending m => simp [sendingReplies, hs, EntryState.isSending, EntryState.sendingReply]
    | waiting | ready m =>
      simpa [sendingReplies, hs, EntryState.isSending, EntryState.sendingReply] using ih

/-- A change that leaves the inbox and what is sent. -/
theorem HostLink.Keeps.of_parser {new old : HostLink} (hn : new.notice = old.notice)
    (hi : new.inbox = old.inbox) (ht : new.transmitter = old.transmitter)
    (hr : new.resetPending = old.resetPending)
    (hg : (old.parser = .hunt → old.gapTimer = none) → new.parser = .hunt → new.gapTimer = none)
    (hp : old.parser.consistent = true → new.parser.consistent = true) : new.Keeps old where
  notice := hn
  source := by rw [ht]
  sound := by
    rintro ⟨h1, h2, h3, h4, h5⟩
    refine ⟨hi ▸ h1, by rw [hi, ht, h2], ?_, hg h4, hp h5⟩
    rw [hi, hr]
    exact h3

/-- A change that leaves the parser and its timer. -/
theorem HostLink.Keeps.of_inbox {new old : HostLink} (hn : new.notice = old.notice)
    (hs : new.transmitter.bind Transmission.source = old.transmitter.bind Transmission.source)
    (hp : new.parser = old.parser) (hg : new.gapTimer = old.gapTimer)
    (hr : new.resetPending = old.resetPending)
    (hl : old.inbox.length ≤ 4 → new.inbox.length ≤ 4)
    (hm : sendingReplies old.inbox = (old.transmitter.bind Transmission.replyMessage).toList →
      sendingReplies new.inbox = (new.transmitter.bind Transmission.replyMessage).toList)
    (hw : (new.inbox.any fun e => e.state.isWaiting) = true →
      (old.inbox.any fun e => e.state.isWaiting) = true ∨ old.resetPending = true) :
    new.Keeps old where
  notice := hn
  source := hs
  sound := by
    rintro ⟨h1, h2, h3, h4, h5⟩
    refine ⟨hl h1, hm h2, fun h => ?_, ?_, by rw [hp]; exact h5⟩
    · rw [hr]
      exact (hw h).elim h3 id
    · rw [hp, hg]
      exact h4

/-- An entry that is not SENDING joins an inbox with room for it. -/
theorem runs_joinInbox {e : InboxEntry} {s : State} (hl : s.link.inbox.length < 4)
    (hs : e.state.sendingReply = none)
    (hw : e.state.isWaiting = true → s.link.resetPending = true) : RunsTo s (joinInbox e s) := by
  refine runs_updLink (.of_inbox rfl rfl rfl rfl rfl ?_ ?_ ?_)
  · intro _
    simp only [List.length_append, List.length_singleton]
    omega
  · intro h
    simpa [sendingReplies, hs] using h
  · intro h
    simp only [List.any_append, List.any_cons, List.any_nil, Bool.or_false, Bool.or_eq_true] at h
    exact h.imp_right hw

theorem runs_overrunInbox (seq : Byte) (s : State) : RunsTo s (overrunInbox seq s) :=
  runs_raiseLinkNotice _ s

/-- A good frame joins the inbox, answered or WAITING, or is discarded. -/
theorem runs_offer (kind seq : Byte) {body : List Byte} {take : List Byte → State → Answer}
    {s : State} (h : Reaches s (take body s).1) : RunsTo s (offer kind seq body take s) := by
  unfold offer
  split
  · rename_i hroom
    split
    · rename_i hreset
      exact runs_joinInbox hroom rfl fun _ => hreset
    · refine h.runs.trans (runs_joinInbox ?_ rfl (nomatch ·))
      rw [h.link_waits.inbox]
      exact hroom
  · exact runs_overrunInbox seq s

/-! ### Bytes on HRX (R157 to R160) -/

theorem runs_continueFrame {p : Parser} {s : State} (hp : p ≠ .hunt)
    (hc : s.link.parser.consistent = true → p.consistent = true) :
    RunsTo s (continueFrame p s) :=
  runs_updLink (.of_parser rfl rfl rfl rfl (fun _ h => absurd h hp) hc)

theorem runs_dropFrame (s : State) : RunsTo s (dropFrame s) :=
  runs_updLink (.of_parser rfl rfl rfl rfl (fun _ _ => rfl) fun _ => rfl)

theorem runs_abandonFrame (s : State) : RunsTo s (abandonFrame s) :=
  (runs_dropFrame s).trans (runs_raiseLinkNotice _ _)

theorem runs_searchStart (s : State) : RunsTo s (searchStart s) :=
  runs_updLink (.of_parser rfl rfl rfl rfl id id)

theorem runs_watchStop (s : State) : RunsTo s (watchStop s) :=
  runs_updLink (.of_parser rfl rfl rfl rfl (fun _ _ => rfl) id)

theorem runs_judgeFrame (f : InFrame) (check : Word16) (s : State) :
    RunsTo s (judgeFrame f check s) := by
  unfold judgeFrame
  split
  · split
    · exact runs_offer _ _ (reaches_answerTo _ _ s)
    · exact .refl
  · exact runs_raiseLinkNotice _ s

theorem crc_append (bytes : List Byte) (b : Byte) : crc (bytes ++ [b]) = crcByte (crc bytes) b := by
  simp [crc]

/-- A byte of the body keeps the frame within its length and its check up to date. -/
theorem consistent_afterBodyByte {f : InFrame} (b : Byte)
    (h : (Parser.body f).consistent = true) : (afterBodyByte (f.keep b)).consistent = true := by
  simp only [Parser.consistent, Bool.and_eq_true, decide_eq_true_eq, beq_iff_eq] at h
  obtain ⟨⟨⟨h2, h202⟩, hlen⟩, hcheck⟩ := h
  have hnext : crcByte f.check b = crc (BitVec.ofNat 8 f.length :: (f.bytes ++ [b])) := by
    rw [hcheck, ← crc_append, List.cons_append]
  unfold afterBodyByte InFrame.keep
  dsimp only
  split
  · rename_i hless
    simp only [List.length_append, List.length_singleton] at hless
    simp [Parser.consistent, h2, h202, hnext, hless]
  · rename_i hmore
    simp only [List.length_append, List.length_singleton] at hmore
    simp only [Parser.consistent, Bool.and_eq_true, decide_eq_true_eq, beq_iff_eq,
      List.length_append, List.length_singleton]
    exact ⟨⟨⟨h2, h202⟩, by omega⟩, hnext⟩

theorem afterBodyByte_ne_hunt (f : InFrame) : afterBodyByte f ≠ .hunt := by
  unfold afterBodyByte; split <;> exact (nomatch ·)

theorem consistent_goodLength {b : Byte} (h : ¬ isBadLength b = true) :
    (Parser.body ⟨b.toNat, [], crcByte crcStart b⟩).consistent = true := by
  simp only [isBadLength, Bool.or_eq_true, decide_eq_true_eq] at h
  have hlow : 2 ≤ b.toNat := by omega
  have hhigh : b.toNat ≤ 202 := by omega
  have hpos : 0 < b.toNat := by omega
  simp [Parser.consistent, hlow, hhigh, hpos, crc]

theorem runs_takeByte (b : Byte) (s : State) : RunsTo s (takeByte b s) := by
  unfold takeByte
  split
  · split
    · exact runs_continueFrame (nomatch ·) fun _ => rfl
    · exact .refl
  · split
    · exact runs_abandonFrame s
    · rename_i hgood
      exact runs_continueFrame (nomatch ·) fun _ => consistent_goodLength hgood
  · rename_i f hf
    refine runs_continueFrame (afterBodyByte_ne_hunt _) fun h => consistent_afterBodyByte b ?_
    rwa [hf] at h
  · rename_i f hf
    refine runs_continueFrame (nomatch ·) fun h => ?_
    rwa [hf] at h
  · exact (runs_dropFrame s).trans (runs_judgeFrame _ _ _)

theorem runs_receiveByte (byte : Samples 10) (s : State) : RunsTo s (receiveByte byte s) := by
  by_cases hr : s.link.receiver = .stopLow
  · rw [receiveByte_stopLow byte hr]
  · rw [receiveByte_decides byte hr, decideByte]
    split
    · exact runs_searchStart s
    · split
      · exact (runs_searchStart s).trans (runs_takeByte _ _)
      · exact runs_watchStop s

theorem runs_endFrame (check : Samples 10) (s : State) : RunsTo s (endFrame check s) := by
  unfold endFrame
  split
  · exact runs_receiveByte check s
  · exact .refl

theorem runs_rejectLength (length : Samples 10) (s : State) : RunsTo s (rejectLength length s) := by
  unfold rejectLength
  split
  · split
    · exact runs_receiveByte length s
    · exact .refl
  · exact .refl

theorem runs_failByte (s : State) : RunsTo s (failByte s) := by
  unfold failByte
  split
  · exact runs_searchStart s
  · exact (runs_searchStart s).trans (runs_abandonFrame _)

theorem runs_expireHostGap (s : State) : RunsTo s (expireHostGap s) := by
  unfold expireHostGap
  split
  · exact runs_abandonFrame s
  · exact .refl

theorem runs_takeBreak (s : State) : RunsTo s (takeBreak s) :=
  (runs_dropFrame s).trans (runs_searchStart _)

theorem runs_verifyHostStart (s : State) : RunsTo s (verifyHostStart s) := by
  unfold verifyHostStart
  split
  · exact runs_updLink (.of_parser rfl rfl rfl rfl (fun _ _ => rfl) id)
  · exact .refl
  · exact .refl

/-! ### The arbiter and the ends of messages (R148, R150, R163, R165) -/

/-- The oldest READY reply begins on an idle transmitter. -/
theorem runs_beginReply {s : State} {m : Message} {taken : List InboxEntry}
    (ht : s.link.transmitter = none) (h : takeOldestReady s.link.inbox = some (m, taken)) :
    RunsTo s (s.updLink fun k => { k with inbox := taken, transmitter := some (.reply m) }) := by
  obtain ⟨older, e, newer, hinbox, hready, rfl⟩ := takeOldestReady_some h
  refine runs_updLink (.of_inbox rfl (by simp [ht, Transmission.source]) rfl rfl rfl ?_ ?_ ?_)
  · rw [hinbox]
    simp
  · rw [hinbox, ht]
    simp only [sendingReplies, List.filterMap_append, List.filterMap_cons, hready,
      EntryState.sendingReply, Option.bind_none, Option.toList_none, List.append_eq_nil_iff]
    rintro ⟨h1, h2⟩
    simp [h1, h2, Transmission.replyMessage]
  · rw [hinbox]
    simpa [hready, EntryState.isWaiting] using .inl

theorem untold_sourceBegins (src : Source) (s : State) : (sourceBegins src s).untold = s.untold := by
  cases src <;> simp [sourceBegins]

theorem untold_beginReport (src : Source) (rest : List Source) (s : State) :
    (beginReport src rest s).untold = s.untold := by
  rw [beginReport, State.untold_updLink, untold_sourceBegins]
  exact State.untold_withReports s rest

theorem runs_arbitrate (s : State) : RunsTo s (arbitrate s) := by
  unfold arbitrate
  split
  · exact .refl
  · rename_i ht
    split
    · refine runs_updLink (.of_inbox rfl (by simp [ht, Transmission.source]) rfl rfl rfl id ?_ .inl)
      rw [ht]
      exact id
    · split
      · rename_i hready
        exact runs_beginReply ht hready
      · split
        · rename_i hreports
          split
          · exact .refl
          · exact .of_linkMove (.beginReport _ _ hreports ht) (untold_beginReport _ _ s)
        · exact .refl

theorem runs_reset (straps : BitVec 2) (pin : ResetPin) (s : State) :
    RunsTo s (blocksReset straps pin s) := by
  have hu : (blocksReset straps pin s).untold = fun _ => none := by funext l; cases l <;> rfl
  rw [RunsTo, State.config, State.config, hu]
  exact .single (.inr (.reset straps pin))

theorem runs_endReset (cause : ResetCause) (straps : BitVec 2) (s : State) :
    RunsTo s (endReset cause straps s) :=
  (runs_reset straps .high s).trans
    (runs_updLink (.of_inbox rfl rfl rfl rfl rfl id id .inl))

/-- The SENDING entry is freed as its reply ends. -/
theorem runs_freeEntry {s : State} {m : Message} (h : s.link.transmitter = some (.reply m)) :
    RunsTo s (freeEntry (idleTransmitter s)) := by
  refine runs_updLink (f := fun k => { k with
    transmitter := none, inbox := k.inbox.eraseP fun e => e.state.isSending })
    (.of_inbox rfl (by simp [h, Transmission.source]) rfl rfl rfl ?_ ?_ ?_)
  · exact fun hl => (List.length_eraseP_le).trans hl
  · intro hm
    rw [sendingReplies_eraseP, hm, h]
    rfl
  · intro hw
    obtain ⟨e, he, hwait⟩ := List.any_eq_true.1 hw
    exact .inl (List.any_eq_true.2 ⟨e, List.mem_of_mem_eraseP he, hwait⟩)

theorem runs_finishReply (straps : BitVec 2) (s : State) : RunsTo s (finishReply straps s) := by
  unfold finishReply
  split
  · rename_i h
    split
    · exact runs_endReset _ straps s
    · exact runs_freeEntry h
  · exact .refl

theorem untold_finishReport (s : State) : (finishReport s).untold = s.untold := by
  unfold finishReport
  split
  · rename_i src _ _
    cases src <;> simp [freeSource, idleTransmitter]
  · rfl

theorem runs_finishReport (s : State) : RunsTo s (finishReport s) :=
  .of_linkMove .finishReport (untold_finishReport s)

theorem runs_finishAnnounce (s : State) : RunsTo s (finishAnnounce s) := by
  unfold finishAnnounce
  split
  · rename_i h
    refine runs_updLink (.of_inbox rfl (by simp [h, Transmission.source]) rfl rfl rfl id ?_ .inl)
    rw [h]
    exact id
  · exact .refl

/-! ### Every command -/

/-- A command goes on to a state that moves reach. -/
def RunsOn (o : Host.Outcome State Fault Refusal) (s : State) : Prop :=
  ∃ t, o = .next t ∧ RunsTo s t

theorem runsOn_outOfReset {f : State → State} {s : State} (h : RunsTo s (f s)) :
    RunsOn (outOfReset f s) s := by
  cases hp : s.resetPin with
  | high => exact ⟨_, outOfReset_high f hp, h⟩
  | low b => exact ⟨s, outOfReset_low f hp, .refl⟩

theorem runsOn_command {f : State → State} {s : State} (h : RunsTo s (f s)) :
    RunsOn (command f s) s := runsOn_outOfReset (h.trans (runs_arbitrate _))

theorem runsOn_request {kind seq : Byte} {body : List Byte} {take : List Byte → State → Answer}
    {s : State} (h : Reaches s (take body s).1) : RunsOn (command (offer kind seq body take) s) s :=
  runsOn_command (runs_offer kind seq h)

theorem runsOn_execLineLevelChange (l : Line) (level : Level) (s : State) :
    RunsOn (execLineLevelChange l level s) s := by
  unfold execLineLevelChange
  split
  · have hpin : Reaches s (s.updLine l fun b => { b with pins := { b.pins with rx := level } }) :=
      reaches_updLine ⟨rfl, rfl, rfl, rfl, id⟩ rfl
    exact ⟨_, rfl, hpin.runs⟩
  · have hlevel : Reaches s (s.updLine l fun b => b.levelChange level) :=
      reaches_updLine ⟨rfl, rfl, rfl, rfl, id⟩ rfl
    exact ⟨_, rfl, hlevel.runs⟩

theorem runsOn_execPowerOnReset (straps : BitVec 2) (s : State) :
    RunsOn (execPowerOnReset straps s) s := by
  unfold execPowerOnReset
  split
  · exact ⟨_, rfl, runs_reset _ _ s⟩
  · exact ⟨_, rfl, (runs_endReset _ _ s).trans (runs_arbitrate _)⟩

theorem runsOn_execResetPinLow (s : State) : RunsOn (execResetPinLow s) s := by
  unfold execResetPinLow
  split
  · exact ⟨_, rfl, .refl⟩
  · exact ⟨_, rfl, runs_reset _ _ s⟩

theorem runsOn_execResetPinRelease (straps : BitVec 2) (s : State) :
    RunsOn (execResetPinRelease straps s) s := by
  unfold execResetPinRelease
  split
  · exact ⟨_, rfl, (runs_endReset _ _ s).trans (runs_arbitrate _)⟩
  · exact ⟨_, rfl, .refl⟩

/-- Every command answers a next state, which moves reach. -/
theorem runsOn_exec (c : Instr) (s : State) : RunsOn (exec c s) s := by
  cases c with
  | identify seq body => exact runsOn_request (reaches_requestIdentify body s)
  | configureLine seq body => exact runsOn_request (reaches_requestConfigureLine body s)
  | queryLine seq body => exact runsOn_request (reaches_requestQueryLine body s)
  | startLine seq body => exact runsOn_request (reaches_requestStartLine body s)
  | stopLine seq body => exact runsOn_request (reaches_requestStopLine body s)
  | resetLine seq body => exact runsOn_request (reaches_requestResetLine body s)
  | addNode seq body => exact runsOn_request (reaches_requestAddNode body s)
  | removeNode seq body => exact runsOn_request (reaches_requestRemoveNode body s)
  | setNode seq body => exact runsOn_request (reaches_requestSetNode body s)
  | queryNode seq body => exact runsOn_request (reaches_requestQueryNode body s)
  | listNodes seq body => exact runsOn_request (reaches_requestListNodes body s)
  | submit seq body => exact runsOn_request (reaches_requestSubmit body s)
  | cancel seq body => exact runsOn_request (reaches_requestCancel body s)
  | queryTransfer seq body => exact runsOn_request (reaches_requestQueryTransfer body s)
  | discover seq body => exact runsOn_request (reaches_requestDiscover body s)
  | stopDiscovery seq body => exact runsOn_request (reaches_requestStopDiscovery body s)
  | credit seq body => exact runsOn_request (reaches_requestCredit body s)
  | resetPart seq body => exact runsOn_request (reaches_requestResetPart body s)
  | unknownKind kind seq body => exact runsOn_request (reaches_answerTo kind body s)
  | hostFrameReceived check => exact runsOn_command (runs_endFrame check s)
  | badFrameLength length => exact runsOn_command (runs_rejectLength length s)
  | byteFramingError => exact runsOn_command (runs_failByte s)
  | hostGapTimeout => exact runsOn_command (runs_expireHostGap s)
  | hostBreak => exact runsOn_outOfReset (runs_takeBreak s)
  | replySent straps => exact runsOn_command (runs_finishReply straps s)
  | reportSent => exact runsOn_command (runs_finishReport s)
  | announceSent => exact runsOn_command (runs_finishAnnounce s)
  | powerOnReset straps => exact runsOn_execPowerOnReset straps s
  | resetPinLow => exact runsOn_execResetPinLow s
  | resetPinRelease straps => exact runsOn_execResetPinRelease straps s
  | frameSent l => exact runsOn_command (reaches_sendFrame l s).runs
  | echoContention l => exact runsOn_command (reaches_contend l s).runs
  | lineCharacterReceived l bits => exact runsOn_command (reaches_receiveCharacter l bits s).runs
  | falseStart l => exact runsOn_outOfReset (reaches_rejectStart l s).runs
  | replyComplete l bits => exact runsOn_command (reaches_completeReply l bits s).runs
  | replyWindowExpiry l => exact runsOn_command (reaches_expireWindow l s).runs
  | gapLimitExceeded l => exact runsOn_command (reaches_exceedGap l s).runs
  | guardExpiry l => exact runsOn_command (reaches_expireGuard l s).runs
  | deadlineExpiry record => exact runsOn_command (reaches_expireDeadline record s).runs
  | cycleFloorExpiry l => exact runsOn_command (reaches_elapseFloor l s).runs
  | wakeBreakEnd l => exact runsOn_command (reaches_endWakeBreak l s).runs
  | quietComplete l => exact runsOn_command (reaches_completeQuiet l s).runs
  | dominantInQuiet l => exact runsOn_command (reaches_spoilQuiet l s).runs
  | stuckDominant l => exact runsOn_command (reaches_stickDominant l s).runs
  | faultHoldExpiry l => exact runsOn_command (reaches_expireHold l s).runs
  | recoveryWatchComplete l => exact runsOn_command (reaches_completeRecoveryWatch l s).runs
  | dominantInRecoveryWatch l => exact runsOn_command (reaches_spoilRecoveryWatch l s).runs
  | hostByteReceived byte => exact runsOn_command (runs_receiveByte byte s)
  | hostStartVerified => exact runsOn_outOfReset (runs_verifyHostStart s)
  | startVerified l noisy => exact runsOn_outOfReset (reaches_verifyStart l noisy s).runs
  | receiverArmed l => exact runsOn_outOfReset (reaches_armReceiver l s).runs
  | lineLevelChange l level => exact runsOn_execLineLevelChange l level s

end Sys2Proof.Machine

/-! What every move keeps: the notices (R144), the node table (R6), the host link, the queue of commands;
and from it what every step keeps. -/

namespace Sys2Proof.Machine

/-! ### From moves to steps -/

/-- What every move keeps, and the queue of commands has no part in, every step keeps. -/
theorem keeps_of_step {P : Config → Prop} (hM : ∀ {c d}, Move c d → P c → P d)
    (hL : ∀ {c d}, LinkMove c d → P c → P d)
    (hq : ∀ {s : State} (q : List Instr), P s.config → P (s.withPending q).config) {s t : State}
    (ht : step s = .next t) (h : P s.config) : P t.config := by
  unfold step at ht
  split at ht
  · cases ht; exact h
  · rename_i c rest _
    obtain ⟨t', ht', hruns⟩ := runsOn_exec c (s.withPending rest)
    rw [ht'] at ht
    cases ht
    exact Runs.keep hM hL hruns (hq rest h)

/-! ### The queue of commands -/

theorem State.pending_updLine (s : State) (l : Line) (f : LineBlock → LineBlock) :
    (s.updLine l f).pending = s.pending := by rw [State.updLine_eq, State.pending_setLine]

theorem pending_tellRecord (r : RecordIndex) (o : ExchangeOutcome) (gone lost stopping : Bool)
    (s : State) : (tellRecord r o gone lost stopping s).pending = s.pending := by
  rw [tellRecord_eq]
  split
  · simp
  · simp [queueTail, State.pending_updLine]
  · simp [queueHead, State.pending_updLine]

theorem pending_of_move {c d : Config} (h : Move c d) : d.state.pending = c.state.pending := by
  cases h with
  | completeQueued l p result =>
    obtain ⟨-, -, -, -, -, -, -, -, -, hpending⟩ := completeQueued_spec l p result ‹State›
    exact hpending
  | completeFromQueue r result _ =>
    simp [completeFromQueue, completeRecord_eq, State.pending_updLine]
  | submit r x _ _ _ => simp [queueTail, State.pending_updLine]
  | pickRecord l r t _ _ => simp [State.pending_updLine]
  | tellRecord l r t o gone lost stopping _ => exact pending_tellRecord ..
  | reserve l k h _ _ => simp [reserveSlot]
  | freeSlot l h k _ => simp [freeSlot]
  | fillSlot l h k payload _ => simp [enqueue_withReports]
  | nodeNotice i => simp [raiseNodeNotice_eq]
  | lineNotice l => simp [raiseLineNotice_eq]
  | runNotice l => simp [raiseDiscoveryNotice_eq]
  | _ => simp

theorem pending_sourceBegins (src : Source) (s : State) :
    (sourceBegins src s).pending = s.pending := by
  cases src <;> simp [sourceBegins, State.updGuard_eq, State.updDiscovery_eq]

theorem pending_finishReport (s : State) : (finishReport s).pending = s.pending := by
  unfold finishReport
  split
  · rename_i src _ _
    cases src <;> simp [freeSource, idleTransmitter]
  · rfl

theorem pending_of_linkMove {c d : Config} (h : LinkMove c d) :
    d.state.pending = c.state.pending := by
  cases h with
  | notice f => simp [raiseLinkNotice_eq]
  | link f _ => simp
  | beginReport src rest _ _ => simp [beginReport, pending_sourceBegins]
  | finishReport => exact pending_finishReport _
  | reset straps pin => rfl

/-- Settles O2: a command is a run of moves, and no move touches the queue of commands. -/
theorem everyCommandCompletesAndKeepsTheQueue : Obligations.EveryCommandCompletesAndKeepsTheQueue := by
  intro c s
  obtain ⟨t, ht, hruns⟩ := runsOn_exec c s
  exact ⟨t, ht, Runs.keep (P := fun d => d.state.pending = s.pending)
    (fun hm hc => (pending_of_move hm).trans hc) (fun hm hc => (pending_of_linkMove hm).trans hc)
    hruns rfl⟩

/-! ### The notices (R144, R146) -/

/-- Whether a source's notice is pending; the sources of COMPLETION and DATA reports have none. -/
def State.flag (s : State) : Source → Option Bool
  | .node i => some (s.node i).noticePending
  | .line l => some (s.line l).guard.noticePending
  | .discovery l => some (s.line l).discovery.noticePending
  | .link => some s.link.notice.pending
  | .completion _ => none
  | .data _ => none

/-- No source has two entries, and a notice is pending exactly while its source is queued. -/
def NoticesFit (flag : Source → Option Bool) (q : List Source) : Prop :=
  q.Nodup ∧ ∀ src b, flag src = some b → (b = true ↔ src ∈ q)

theorem noticesOk_iff (s : State) : NoticesOk s ↔ NoticesFit s.flag s.reports := by
  constructor
  · rintro ⟨hd, hn, hla, hlb, hda, hdb, hk⟩
    refine ⟨hd, fun src b hb => ?_⟩
    cases src with
    | node i => cases hb; exact hn i
    | line l => cases hb; cases l <;> assumption
    | discovery l => cases hb; cases l <;> assumption
    | link => cases hb; exact hk
    | completion r => cases hb
    | data k => cases hb
  · rintro ⟨hd, h⟩
    exact ⟨hd, fun i => h (.node i) _ rfl, h (.line .A) _ rfl, h (.line .B) _ rfl,
      h (.discovery .A) _ rfl, h (.discovery .B) _ rfl, h .link _ rfl⟩

/-- A source whose notice is raised enters the queue unless it is in it. -/
theorem NoticesFit.raise {flag : Source → Option Bool} {q : List Source} (h : NoticesFit flag q)
    (src : Source) : NoticesFit (Function.update flag src (some true)) (enqueueAll [src] q) := by
  refine ⟨enqueueAll_nodup _ _ h.1, fun y b hb => ?_⟩
  rw [mem_enqueueAll, List.mem_singleton]
  by_cases hy : y = src
  · subst hy
    rw [Function.update_self] at hb
    cases hb
    simp
  · rw [Function.update_of_ne hy] at hb
    simp [h.2 y b hb, hy]

/-- Sources without a notice enter the queue. -/
theorem NoticesFit.enqueue {flag : Source → Option Bool} {q : List Source} (h : NoticesFit flag q)
    (xs : List Source) (hx : ∀ x ∈ xs, flag x = none) : NoticesFit flag (enqueueAll xs q) := by
  refine ⟨enqueueAll_nodup _ _ h.1, fun y b hb => ?_⟩
  have hy : y ∉ xs := fun hm => by rw [hx y hm] at hb; cases hb
  simp [mem_enqueueAll, hy, h.2 y b hb]

/-- The head source leaves the queue and its notice is over. -/
theorem NoticesFit.begin {flag : Source → Option Bool} {src : Source} {rest : List Source}
    (h : NoticesFit flag (src :: rest)) :
    NoticesFit (Function.update flag src ((flag src).map fun _ => false)) rest := by
  obtain ⟨hsrc, hd⟩ := List.nodup_cons.1 h.1
  refine ⟨hd, fun y b hb => ?_⟩
  by_cases hy : y = src
  · subst hy
    rw [Function.update_self, Option.map_eq_some_iff] at hb
    obtain ⟨-, -, rfl⟩ := hb
    simp [hsrc]
  · rw [Function.update_of_ne hy] at hb
    simpa [hy] using h.2 y b hb

theorem State.flag_congr {s t : State} (hn : ∀ i, (t.node i).noticePending = (s.node i).noticePending)
    (hg : ∀ l, (t.line l).guard.noticePending = (s.line l).guard.noticePending)
    (hd : ∀ l, (t.line l).discovery.noticePending = (s.line l).discovery.noticePending)
    (hk : t.link.notice = s.link.notice) : t.flag = s.flag := by
  funext src
  cases src <;> simp [State.flag, hn, hg, hd, hk]

theorem State.flag_setNode {s : State} {i : EntryIndex} {e : NodeEntry}
    (h : e.noticePending = (s.node i).noticePending) : (s.setNode i e).flag = s.flag := by
  refine State.flag_congr (fun j => ?_) (by simp) (by simp) rfl
  rw [State.node_setNode]
  split
  · rename_i hj; rw [hj, h]
  · rfl

theorem State.flag_setLine {s : State} {l : Line} {b : LineBlock}
    (hg : b.guard.noticePending = (s.line l).guard.noticePending)
    (hd : b.discovery.noticePending = (s.line l).discovery.noticePending) :
    (s.setLine l b).flag = s.flag := by
  have hline (m : Line) : ((s.setLine l b).line m).guard.noticePending =
        (s.line m).guard.noticePending ∧
      ((s.setLine l b).line m).discovery.noticePending = (s.line m).discovery.noticePending := by
    rw [State.line_setLine]
    split
    · rename_i hm; subst hm; exact ⟨hg, hd⟩
    · exact ⟨rfl, rfl⟩
  exact State.flag_congr (by simp) (fun m => (hline m).1) (fun m => (hline m).2) (by simp)

@[simp] theorem State.flag_setRecord (s : State) (r : RecordIndex) (x : TransferRecord) :
    (s.setRecord r x).flag = s.flag := State.flag_congr (by simp) (by simp) (by simp) rfl

@[simp] theorem State.flag_setSlot (s : State) (k : SlotIndex) (x : ReceiveSlot) :
    (s.setSlot k x).flag = s.flag := State.flag_congr (by simp) (by simp) (by simp) rfl

@[simp] theorem State.flag_withReports (s : State) (q : List Source) :
    (s.withReports q).flag = s.flag := State.flag_congr (by simp) (by simp) (by simp) rfl

theorem State.flag_updLink {s : State} {f : HostLink → HostLink}
    (h : (f s.link).notice = s.link.notice) : (s.updLink f).flag = s.flag :=
  State.flag_congr (by simp) (by simp) (by simp) h

/-- The notice of one source is set to `b`. -/
theorem State.flag_setNode_notice (s : State) (i : EntryIndex) {e : NodeEntry} {b : Bool}
    (h : e.noticePending = b) : (s.setNode i e).flag = Function.update s.flag (.node i) (some b) := by
  rw [Function.eq_update_iff]
  refine ⟨by simp [State.flag, h], fun y hy => ?_⟩
  cases y with
  | node j =>
    have hj : j ≠ i := fun hj => hy (hj ▸ rfl)
    simp [State.flag, State.node_setNode, hj]
  | completion _ | data _ => rfl
  | line _ | discovery _ | link => simp [State.flag]

theorem State.flag_setLine_notice (s : State) (l : Line) {b : LineBlock} {n : Bool}
    (h : b.guard.noticePending = n)
    (hd : b.discovery.noticePending = (s.line l).discovery.noticePending) :
    (s.setLine l b).flag = Function.update s.flag (.line l) (some n) := by
  rw [Function.eq_update_iff]
  refine ⟨by simp [State.flag, h], fun y hy => ?_⟩
  cases y with
  | line m =>
    have hm : m ≠ l := fun hm => hy (hm ▸ rfl)
    simp [State.flag, State.line_setLine, hm]
  | discovery m =>
    by_cases hm : m = l
    · subst hm; simp [State.flag, hd]
    · simp [State.flag, State.line_setLine, hm]
  | completion _ | data _ => rfl
  | node _ | link => simp [State.flag]

theorem State.flag_setLine_runNotice (s : State) (l : Line) {b : LineBlock} {n : Bool}
    (h : b.discovery.noticePending = n)
    (hg : b.guard.noticePending = (s.line l).guard.noticePending) :
    (s.setLine l b).flag = Function.update s.flag (.discovery l) (some n) := by
  rw [Function.eq_update_iff]
  refine ⟨by simp [State.flag, h], fun y hy => ?_⟩
  cases y with
  | discovery m =>
    have hm : m ≠ l := fun hm => hy (hm ▸ rfl)
    simp [State.flag, State.line_setLine, hm]
  | line m =>
    by_cases hm : m = l
    · subst hm; simp [State.flag, hg]
    · simp [State.flag, State.line_setLine, hm]
  | completion _ | data _ => rfl
  | node _ | link => simp [State.flag]

theorem State.flag_updLink_notice (s : State) {f : HostLink → HostLink} {n : Bool}
    (h : (f s.link).notice.pending = n) :
    (s.updLink f).flag = Function.update s.flag .link (some n) := by
  rw [Function.eq_update_iff]
  refine ⟨by simp [State.flag, h], fun y hy => ?_⟩
  cases y with
  | link => exact absurd rfl hy
  | completion _ | data _ => rfl
  | line _ | discovery _ | node _ => simp [State.flag]

theorem flag_raiseNodeNotice (i : EntryIndex) (s : State) :
    (raiseNodeNotice i s).flag = Function.update s.flag (.node i) (some true) := by
  rw [raiseNodeNotice_eq, State.flag_withReports]
  exact State.flag_setNode_notice s i rfl

theorem flag_raiseLineNotice (l : Line) (s : State) :
    (raiseLineNotice l s).flag = Function.update s.flag (.line l) (some true) := by
  rw [raiseLineNotice_eq, State.flag_withReports]
  exact State.flag_setLine_notice s l rfl rfl

theorem flag_raiseDiscoveryNotice (l : Line) (s : State) :
    (raiseDiscoveryNotice l s).flag = Function.update s.flag (.discovery l) (some true) := by
  rw [raiseDiscoveryNotice_eq, State.flag_withReports]
  exact State.flag_setLine_runNotice s l rfl rfl

theorem flag_raiseLinkNotice (f : LinkNotice → LinkNotice) (s : State) :
    (raiseLinkNotice f s).flag = Function.update s.flag .link (some true) := by
  rw [raiseLinkNotice_eq, State.flag_withReports]
  exact State.flag_updLink_notice s rfl

theorem reports_raiseNodeNotice (i : EntryIndex) (s : State) :
    (raiseNodeNotice i s).reports = enqueueAll [.node i] s.reports := by rw [raiseNodeNotice_eq]; rfl

theorem reports_raiseLineNotice (l : Line) (s : State) :
    (raiseLineNotice l s).reports = enqueueAll [.line l] s.reports := by rw [raiseLineNotice_eq]; rfl

theorem reports_raiseDiscoveryNotice (l : Line) (s : State) :
    (raiseDiscoveryNotice l s).reports = enqueueAll [.discovery l] s.reports := by
  rw [raiseDiscoveryNotice_eq]; rfl

theorem reports_raiseLinkNotice (f : LinkNotice → LinkNotice) (s : State) :
    (raiseLinkNotice f s).reports = enqueueAll [.link] s.reports := by rw [raiseLinkNotice_eq]; rfl

/-- A change of a line that leaves its notices. -/
theorem State.flag_updLine {s : State} {l : Line} {f : LineBlock → LineBlock}
    (hg : (f (s.line l)).guard.noticePending = (s.line l).guard.noticePending)
    (hd : (f (s.line l)).discovery.noticePending = (s.line l).discovery.noticePending) :
    (s.updLine l f).flag = s.flag := State.flag_setLine hg hd

theorem State.reports_updLine (s : State) (l : Line) (f : LineBlock → LineBlock) :
    (s.updLine l f).reports = s.reports := by rw [State.updLine_eq, State.reports_setLine]

@[simp] theorem flag_queueTail (r : RecordIndex) (s : State) : (queueTail r s).flag = s.flag := by
  apply State.flag_updLine <;> split <;> rfl

@[simp] theorem flag_queueHead (r : RecordIndex) (s : State) : (queueHead r s).flag = s.flag := by
  apply State.flag_updLine <;> split <;> rfl

@[simp] theorem reports_queueTail (r : RecordIndex) (s : State) :
    (queueTail r s).reports = s.reports := State.reports_updLine ..

@[simp] theorem reports_queueHead (r : RecordIndex) (s : State) :
    (queueHead r s).reports = s.reports := State.reports_updLine ..

/-- The notices agree with the report queue. -/
def Config.noticesFit (c : Config) : Prop := NoticesFit c.state.flag c.state.reports

theorem NoticesFit.completion {flag : Source → Option Bool} {q : List Source}
    (h : NoticesFit flag q) (r : RecordIndex) (hr : flag (.completion r) = none) :
    NoticesFit flag (enqueueAll [.completion r] q) :=
  h.enqueue _ fun x hx => by rw [List.mem_singleton.1 hx, hr]

theorem noticesFit_completeQueued {s : State} (l : Line) (p : TransferRecord → Bool)
    (result : TransferResult) (h : NoticesFit s.flag s.reports) :
    NoticesFit (completeQueued l p result s).1.flag (completeQueued l p result s).1.reports := by
  obtain ⟨-, -, hl, hreports, hnodes, -, ho, hlink, -⟩ := completeQueued_spec l p result s
  have hline (m : Line) : ((completeQueued l p result s).1.line m).guard = (s.line m).guard ∧
      ((completeQueued l p result s).1.line m).discovery = (s.line m).discovery := by
    by_cases hm : m = l
    · subst hm; rw [hl]; exact ⟨rfl, rfl⟩
    · have hm : m = otherLine l := by cases l <;> cases m <;> simp_all [otherLine]
      rw [hm, ho]; exact ⟨rfl, rfl⟩
  have hflag : (completeQueued l p result s).1.flag = s.flag :=
    State.flag_congr (fun i => by simp only [State.node, hnodes]) (fun m => by rw [(hline m).1])
      (fun m => by rw [(hline m).2]) (by rw [hlink])
  rw [hreports, hflag]
  refine h.enqueue _ fun x hx => ?_
  obtain ⟨r, -, rfl⟩ := List.mem_map.1 hx
  rfl

theorem noticesFit_tellRecord {s : State} (r : RecordIndex) (o : ExchangeOutcome)
    (gone lost stopping : Bool) (h : NoticesFit s.flag s.reports) :
    NoticesFit (tellRecord r o gone lost stopping s).flag
      (tellRecord r o gone lost stopping s).reports := by
  rw [tellRecord_eq]
  split
  · simpa using h.completion r rfl
  · simpa using h
  · simpa using h

/-- R144: every move of a command within the part keeps the notices. -/
theorem noticesFit_of_move {c d : Config} (h : Move c d) (hc : c.noticesFit) : d.noticesFit := by
  unfold Config.noticesFit at hc ⊢
  cases h with
  | line l b h =>
    dsimp only
    rwa [State.flag_setLine h.notice h.runNotice, State.reports_setLine]
  | node i e h _ =>
    dsimp only
    rwa [State.flag_setNode h.notice, State.reports_setNode]
  | fill i e h _ _ =>
    dsimp only
    rwa [State.flag_setNode h.notice, State.reports_setNode]
  | nodeNotice i =>
    rw [flag_raiseNodeNotice, reports_raiseNodeNotice]
    exact hc.raise (.node i)
  | lineNotice l =>
    rw [flag_raiseLineNotice, reports_raiseLineNotice]
    exact hc.raise (.line l)
  | runNotice l =>
    rw [flag_raiseDiscoveryNotice, reports_raiseDiscoveryNotice]
    exact hc.raise (.discovery l)
  | completeQueued l p result => exact noticesFit_completeQueued l p result hc
  | completeFromQueue r result _ =>
    dsimp only at hc ⊢
    rw [completeFromQueue, completeRecord_eq, State.flag_withReports, State.flag_setRecord,
      State.flag_updLine rfl rfl, State.reports_withReports, State.reports_updLine]
    exact hc.completion r rfl
  | submit r x _ _ _ => simpa using hc
  | pickRecord l r t _ _ =>
    dsimp only at hc ⊢
    rwa [State.flag_setRecord, State.flag_updLine rfl rfl, State.reports_setRecord,
      State.reports_updLine]
  | reserve l k h _ _ => simpa [reserveSlot] using hc
  | handOver l c _ _ _ => exact hc
  | told l c _ _ _ => exact hc
  | tellRecord l r t o gone lost stopping _ => exact noticesFit_tellRecord r o gone lost stopping hc
  | freeSlot l h k _ => simpa [freeSlot] using hc
  | fillSlot l h k payload _ =>
    dsimp only at hc ⊢
    rw [enqueue_withReports, State.flag_withReports, State.flag_setSlot, State.reports_withReports]
    refine hc.enqueue _ fun x hx => ?_
    rw [List.mem_singleton.1 hx]
    rfl
  | credit n =>
    dsimp only
    rw [State.flag_updLink rfl]
    exact hc
  | awaitReset =>
    dsimp only
    rw [State.flag_updLink rfl]
    exact hc

/-- What a source does as its report begins: its notice is over (R25, R115, R131, R155). -/
theorem flag_sourceBegins (src : Source) (s : State) :
    (sourceBegins src s).flag = Function.update s.flag src ((s.flag src).map fun _ => false) := by
  cases src with
  | completion r => exact (Function.update_eq_self (.completion r) s.flag).symm
  | node i => exact State.flag_setNode_notice s i rfl
  | data k =>
    exact (State.flag_setSlot ..).trans (Function.update_eq_self (.data k) s.flag).symm
  | line l => exact State.flag_setLine_notice s l rfl rfl
  | discovery l => exact State.flag_setLine_runNotice s l rfl rfl
  | link => exact State.flag_updLink_notice s rfl

theorem reports_sourceBegins (src : Source) (s : State) :
    (sourceBegins src s).reports = s.reports := by
  cases src <;> simp [sourceBegins, State.updGuard_eq, State.updDiscovery_eq]

theorem flag_finishReport (s : State) : (finishReport s).flag = s.flag := by
  unfold finishReport
  split
  · rename_i src _ _
    have hidle : (idleTransmitter s).flag = s.flag := State.flag_updLink rfl
    cases src <;> simp [freeSource, hidle]
  · rfl

theorem reports_finishReport (s : State) : (finishReport s).reports = s.reports := by
  unfold finishReport
  split
  · rename_i src _ _
    cases src <;> simp [freeSource, idleTransmitter]
  · rfl

theorem noticesFit_blocksReset (straps : BitVec 2) (pin : ResetPin) (s : State) :
    NoticesFit (blocksReset straps pin s).flag [] := by
  refine ⟨List.nodup_nil, fun src b hb => ?_⟩
  have hnode (i : EntryIndex) : (blocksReset straps pin s).node i = .reset := by
    simp [State.node, blocksReset, State.blocksReset, Vector.get]
  have hclear : b = false := by
    cases src with
    | node i => simpa [State.flag, hnode, NodeEntry.reset] using hb.symm
    | line l => cases l <;> exact (Option.some.inj hb).symm
    | discovery l => cases l <;> exact (Option.some.inj hb).symm
    | link => exact (Option.some.inj hb).symm
    | completion _ | data _ => cases hb
  simp [hclear]

/-- R144, R148: every move of the host link keeps the notices. -/
theorem noticesFit_of_linkMove {c d : Config} (h : LinkMove c d) (hc : c.noticesFit) :
    d.noticesFit := by
  unfold Config.noticesFit at hc ⊢
  cases h with
  | notice f =>
    rw [flag_raiseLinkNotice, reports_raiseLinkNotice]
    exact hc.raise .link
  | link f h =>
    dsimp only
    rwa [State.flag_updLink h.notice]
  | beginReport src rest h _ =>
    dsimp only at hc ⊢
    rw [h] at hc
    rw [beginReport, State.flag_updLink rfl, flag_sourceBegins, State.reports_updLink,
      reports_sourceBegins]
    exact hc.begin
  | finishReport =>
    dsimp only
    rwa [flag_finishReport, reports_finishReport]
  | reset straps pin => exact noticesFit_blocksReset straps pin _

/-! ### The length of the report queue -/

/-- The sources, numbered. -/
def Source.number : Source → Fin 117
  | .completion r => ⟨r.val, by omega⟩
  | .node i => ⟨32 + i.val, by omega⟩
  | .data k => ⟨96 + k.val, by omega⟩
  | .line .A => 112
  | .line .B => 113
  | .discovery .A => 114
  | .discovery .B => 115
  | .link => 116

theorem Source.number_injective : Function.Injective Source.number := by
  intro x y h
  have hval := congrArg Fin.val h
  rcases x with r | i | k | ⟨_ | _⟩ | ⟨_ | _⟩ | _ <;> rcases y with r' | i' | k' | ⟨_ | _⟩ | ⟨_ | _⟩ | _ <;>
    simp [Source.number, Fin.ext_iff] at hval ⊢ <;> omega

theorem Source.length_le_of_nodup {q : List Source} (h : q.Nodup) : q.length ≤ 117 := by
  have := (h.map Source.number_injective).length_le_card
  simpa using this

/-- Settles O5: every move keeps the notices (R144), and there are 117 sources (R146). -/
theorem reportQueueHoldsEachSourceOnce : Obligations.ReportQueueHoldsEachSourceOnce := by
  intro s t hs ht
  have h : t.config.noticesFit :=
    keeps_of_step noticesFit_of_move noticesFit_of_linkMove (fun _ => id) ht ((noticesOk_iff s).1 hs)
  exact ⟨(noticesOk_iff t).2 h, Source.length_le_of_nodup h.1⟩

end Sys2Proof.Machine

/-! The node table under every move: addresses stay unique (R6), the miss run within its limit (R10). -/

namespace Sys2Proof.Machine

/-! ### The tables after a move -/

theorem State.node_updLine (s : State) (l : Line) (f : LineBlock → LineBlock) (i : EntryIndex) :
    (s.updLine l f).node i = s.node i := by rw [State.updLine_eq, State.node_setLine]

theorem node_tellRecord (r : RecordIndex) (o : ExchangeOutcome) (gone lost stopping : Bool)
    (s : State) : (tellRecord r o gone lost stopping s).node = s.node := by
  funext i
  rw [tellRecord_eq]
  split
  · simp
  · simp [queueTail, State.node_updLine]
  · simp [queueHead, State.node_updLine]

theorem node_completeQueued (l : Line) (p : TransferRecord → Bool) (result : TransferResult)
    (s : State) : (completeQueued l p result s).1.node = s.node := by
  obtain ⟨-, -, -, -, hnodes, -⟩ := completeQueued_spec l p result s
  funext i
  simp only [State.node, hnodes]

theorem State.node_setNode_eq_update (s : State) (i : EntryIndex) (e : NodeEntry) :
    (s.setNode i e).node = Function.update s.node i e := by
  funext j
  rw [State.node_setNode, Function.update_apply]

theorem node_raiseNodeNotice (i : EntryIndex) (s : State) :
    (raiseNodeNotice i s).node = Function.update s.node i (noted (s.node i)) := by
  rw [raiseNodeNotice_eq, ← State.node_setNode_eq_update]
  rfl

/-- What a move of a command can do to the entries. -/
theorem node_of_move {c d : Config} (h : Move c d) :
    d.state.node = c.state.node ∨
    (∃ i e, d.state.node = Function.update c.state.node i e ∧ c.state.MissFits e (c.state.node i) ∧
      (e.Follows (c.state.node i) ∨
        e.Fills (c.state.node i) ∧ addressInUse e.line e.address c.state = false)) ∨
    ∃ i, d.state.node = Function.update c.state.node i (noted (c.state.node i)) := by
  cases h with
  | node i e h hm => exact .inr (.inl ⟨i, e, State.node_setNode_eq_update .., hm, .inl h⟩)
  | fill i e h hm ha => exact .inr (.inl ⟨i, e, State.node_setNode_eq_update .., hm, .inr ⟨h, ha⟩⟩)
  | nodeNotice i => exact .inr (.inr ⟨i, node_raiseNodeNotice ..⟩)
  | completeQueued l p result => exact .inl (node_completeQueued ..)
  | tellRecord l r t o gone lost stopping _ => exact .inl (node_tellRecord ..)
  | line l b _ => exact .inl (funext fun _ => by simp)
  | lineNotice l => exact .inl (funext fun _ => by simp [raiseLineNotice_eq])
  | runNotice l => exact .inl (funext fun _ => by simp [raiseDiscoveryNotice_eq])
  | completeFromQueue r result _ =>
    exact .inl (funext fun _ => by simp [completeFromQueue, completeRecord_eq, State.node_updLine])
  | submit r x _ _ _ => exact .inl (funext fun _ => by simp [queueTail, State.node_updLine])
  | pickRecord l r t _ _ => exact .inl (funext fun _ => by simp [State.node_updLine])
  | reserve l k h _ _ => exact .inl (funext fun _ => by simp [reserveSlot])
  | freeSlot l h k _ => exact .inl (funext fun _ => by simp [freeSlot])
  | fillSlot l h k payload _ => exact .inl (funext fun _ => by simp [enqueue_withReports])
  | handOver _ _ _ _ _ | told _ _ _ _ _ | credit _ | awaitReset => exact .inl rfl

theorem node_blocksReset (straps : BitVec 2) (pin : ResetPin) (s : State) (i : EntryIndex) :
    (blocksReset straps pin s).node i = .reset := by
  simp [State.node, blocksReset, State.blocksReset, Vector.get]

theorem node_finishReport (s : State) : (finishReport s).node = s.node := by
  unfold finishReport
  split
  · rename_i src _ _
    cases src <;> rfl
  · rfl

/-- What a move of the host link can do to the entries. -/
theorem node_of_linkMove {c d : Config} (h : LinkMove c d) :
    d.state.node = c.state.node ∨
    (∃ i, d.state.node = Function.update c.state.node i
      { c.state.node i with noticePending := false, changeCount := 0 }) ∨
    ∀ i, d.state.node i = .reset := by
  cases h with
  | notice f => exact .inl (funext fun _ => by simp [raiseLinkNotice_eq])
  | link f _ => exact .inl rfl
  | beginReport src rest _ _ =>
    cases src with
    | node i => exact .inr (.inl ⟨i, State.node_setNode_eq_update ..⟩)
    | line l => exact .inl (funext fun _ => by
        simp only [beginReport, State.node_updLink, sourceBegins, State.updGuard_eq,
          State.node_setLine]
        rfl)
    | discovery l => exact .inl (funext fun _ => by
        simp only [beginReport, State.node_updLink, sourceBegins, State.updDiscovery_eq,
          State.node_setLine]
        rfl)
    | completion _ | data _ | link => exact .inl rfl
  | finishReport => exact .inl (node_finishReport _)
  | reset straps pin => exact .inr (.inr (node_blocksReset straps pin _))

/-! ### Addresses, holds and notices of the entries (R6, R18, R22, R24) -/

/-- `NodesOk`, of the entries alone. -/
structure NodesFit (node : EntryIndex → NodeEntry) : Prop where
  unique : ∀ i j : EntryIndex, (node i).occupies (node j).line = true →
    (node j).occupies (node j).line = true → (node i).address = (node j).address → i = j
  hold : ∀ i : EntryIndex, (node i).assignHold = true → (node i).state = .free
  leaving : ∀ i : EntryIndex, (node i).removalPending = true → (node i).state ≠ .free
  count : ∀ i : EntryIndex, (node i).changeCount = 0 ↔ (node i).noticePending = false

theorem nodesOk_iff (s : State) : NodesOk s ↔ NodesFit s.node :=
  ⟨fun ⟨h1, h2, h3, h4⟩ => ⟨h1, h2, h3, h4⟩, fun ⟨h1, h2, h3, h4⟩ => ⟨h1, h2, h3, h4⟩⟩

theorem NodeEntry.Follows.occupies {new old : NodeEntry} (h : new.Follows old) {l : Line}
    (ho : new.occupies l = true) : old.occupies l = true := by
  rw [NodeEntry.occupies_iff] at ho ⊢
  exact ⟨h.line ▸ ho.1, h.inUse ho.2⟩

/-- Entries that follow legal ones are legal. -/
theorem NodesFit.of_follows {node new : EntryIndex → NodeEntry} (h : NodesFit node)
    (hf : ∀ i, (new i).Follows (node i)) : NodesFit new where
  unique i j hi hj ha := by
    have hline : (new j).line = (node j).line := (hf j).line
    rw [hline] at hi hj
    exact h.unique i j ((hf i).occupies hi) ((hf j).occupies hj)
      ((hf i).address ▸ (hf j).address ▸ ha)
  hold i hi := by
    by_contra hs
    obtain ⟨hold, hheld⟩ := (hf i).hold hi hs
    exact hheld (h.hold i hold)
  leaving i hi hs := by
    obtain ⟨hleft, hfree⟩ := (hf i).leaving hi hs
    exact h.leaving i hleft hfree
  count i := by
    rw [(hf i).count, (hf i).notice]
    exact h.count i

theorem NodesFit.update_follows {node : EntryIndex → NodeEntry} {i : EntryIndex} {e : NodeEntry}
    (h : NodesFit node) (hf : e.Follows (node i)) : NodesFit (Function.update node i e) :=
  h.of_follows fun j => by
    rw [Function.update_apply]
    split
    · rename_i hj; exact hj ▸ hf
    · exact .rfl

/-- An allocatable entry that takes a free address leaves every address with one occupant. -/
theorem NodesFit.update_fills {s : State} {i : EntryIndex} {e : NodeEntry} (h : NodesFit s.node)
    (hf : e.Fills (s.node i)) (ha : addressInUse e.line e.address s = false) :
    NodesFit (Function.update s.node i e) := by
  have hfree (j : EntryIndex) (hl : (s.node j).occupies e.line = true) :
      (s.node j).address ≠ e.address := fun hadr => by
    obtain ⟨hline, huse⟩ := ((s.node j).occupies_iff e.line).1 hl
    exact absurd ((addressInUse_iff _ _ _).2 ⟨j, hline, hadr, huse⟩) (by rw [ha]; decide)
  obtain ⟨hold, hnotice, hhold⟩ := (NodeEntry.allocatable_iff _).1 hf.allocatable
  have hcount : (s.node i).changeCount = 0 := (h.count i).2 hnotice
  refine ⟨fun j k hj hk hadr => ?_, fun j => ?_, fun j => ?_, fun j => ?_⟩
  · by_cases hji : j = i <;> by_cases hki : k = i
    · rw [hji, hki]
    · subst hji
      rw [Function.update_self, Function.update_of_ne hki] at hj hadr
      rw [Function.update_of_ne hki] at hk
      rw [← ((e.occupies_iff _).1 hj).1] at hk
      exact absurd hadr.symm (hfree k hk)
    · subst hki
      rw [Function.update_self, Function.update_of_ne hji] at hj hadr
      exact absurd hadr (hfree j hj)
    · rw [Function.update_of_ne hji, Function.update_of_ne hki] at hj hadr
      rw [Function.update_of_ne hki] at hk
      exact h.unique j k hj hk hadr
  · exact (Function.forall_update_iff _ fun _ (x : NodeEntry) => x.assignHold = true → x.state = .free).2
      ⟨hf.hold, fun k _ => h.hold k⟩ j
  · exact (Function.forall_update_iff _ fun _ (x : NodeEntry) => x.removalPending = true → x.state ≠ .free).2
      ⟨fun hr hs => h.leaving i (hf.leaving hr hs).1 (hf.leaving hr hs).2, fun k _ => h.leaving k⟩ j
  · refine (Function.forall_update_iff _ fun _ (x : NodeEntry) => x.changeCount = 0 ↔ x.noticePending = false).2
      ⟨?_, fun k _ => h.count k⟩ j
    rw [hf.notice, hnotice]
    exact iff_of_true (hf.count.elim id fun hc => hc.trans hcount) rfl

/-- A change of an entry's notice and change count, the two together. -/
theorem NodesFit.update_notice {node : EntryIndex → NodeEntry} (i : EntryIndex) {n : Bool}
    {k : BitVec 8} (h : NodesFit node) (hk : k = 0 ↔ n = false) :
    NodesFit (Function.update node i { node i with noticePending := n, changeCount := k }) := by
  have hsame (j : EntryIndex) :
      let e := Function.update node i { node i with noticePending := n, changeCount := k } j
      e.state = (node j).state ∧ e.assignHold = (node j).assignHold ∧
        e.removalPending = (node j).removalPending ∧ e.address = (node j).address ∧
        e.line = (node j).line ∧ ∀ l, e.occupies l = (node j).occupies l := by
    intro e
    by_cases hj : j = i
    · subst hj; simp [e, NodeEntry.occupies, NodeEntry.held]
    · simp [e, Function.update_of_ne hj]
  refine ⟨fun j k hj hk ha => ?_, fun j => ?_, fun j => ?_, fun j => ?_⟩
  · obtain ⟨-, -, -, haj, -, huj⟩ := hsame j
    obtain ⟨-, -, -, hak, hlk, huk⟩ := hsame k
    rw [huj, hlk] at hj
    rw [huk, hlk] at hk
    rw [haj, hak] at ha
    exact h.unique j k hj hk ha
  · obtain ⟨hs, hh, -⟩ := hsame j
    rw [hs, hh]
    exact h.hold j
  · obtain ⟨hs, -, hr, -⟩ := hsame j
    rw [hs, hr]
    exact h.leaving j
  · by_cases hj : j = i
    · subst hj; simpa using hk
    · rw [Function.update_of_ne hj]
      exact h.count j

theorem satInc_ne_zero (c : BitVec 8) : satInc c ≠ 0 := by
  unfold satInc
  split
  · rename_i h; rw [h]; decide
  · rename_i h
    intro h0
    have hlast : c = 255#8 := by bv_omega
    exact h hlast

theorem NodesFit.update_noted {node : EntryIndex → NodeEntry} (i : EntryIndex) (h : NodesFit node) :
    NodesFit (Function.update node i (noted (node i))) :=
  h.update_notice i (iff_of_false (satInc_ne_zero _) (nomatch ·))

theorem nodesFit_of_move {c d : Config} (h : Move c d) (hc : NodesFit c.state.node) :
    NodesFit d.state.node := by
  obtain hn | ⟨i, e, hn, -, hf | ⟨hf, ha⟩⟩ | ⟨i, hn⟩ := node_of_move h <;> rw [hn]
  · exact hc
  · exact hc.update_follows hf
  · exact hc.update_fills hf ha
  · exact hc.update_noted i

theorem nodesFit_of_linkMove {c d : Config} (h : LinkMove c d) (hc : NodesFit c.state.node) :
    NodesFit d.state.node := by
  obtain hn | ⟨i, hn⟩ | hn := node_of_linkMove h
  · rwa [hn]
  · rw [hn]
    exact hc.update_notice i (by simp)
  · have hreset : d.state.node = fun _ => .reset := funext hn
    rw [hreset]
    exact ⟨fun _ _ h => by simp [NodeEntry.occupies, NodeEntry.held, NodeEntry.reset] at h,
      fun _ _ => rfl, fun _ => (nomatch ·), fun _ => by simp [NodeEntry.reset]⟩

/-- Settles O6: an entry comes into use on a free address only, and every other write of an entry
follows what stood there. -/
theorem nodeAddressesStayUnique : Obligations.NodeAddressesStayUnique := by
  intro s t hs ht
  exact (nodesOk_iff t).2 (keeps_of_step (P := fun c => NodesFit c.state.node) nodesFit_of_move
    nodesFit_of_linkMove (fun _ => id) ht ((nodesOk_iff s).1 hs))

/-! ### The miss run (R10, R128) -/

/-- Both lines' parameters are in range, and no miss run passes the greatest miss limit. -/
def MissRunsFit (s : State) : Prop :=
  (∀ l, (s.line l).guard.params.inRange = true) ∧ ∀ i : EntryIndex, (s.node i).missRun ≤ 15

/-- The parameters of a line after a write of a line that leaves its own. -/
theorem params_setLine {s : State} {l : Line} {b : LineBlock}
    (h : b.guard.params = (s.line l).guard.params) (m : Line) :
    ((s.setLine l b).line m).guard.params = (s.line m).guard.params := by
  rw [State.line_setLine]
  split
  · rename_i hm; rw [h, hm]
  · rfl

theorem params_updLine {s : State} {l : Line} {f : LineBlock → LineBlock}
    (h : (f (s.line l)).guard.params = (s.line l).guard.params) (m : Line) :
    ((s.updLine l f).line m).guard.params = (s.line m).guard.params := params_setLine h m

theorem params_raiseLineNotice (l : Line) (s : State) (m : Line) :
    ((raiseLineNotice l s).line m).guard.params = (s.line m).guard.params := by
  rw [raiseLineNotice_eq, State.line_withReports]
  exact params_setLine (by rfl) m

theorem params_raiseDiscoveryNotice (l : Line) (s : State) (m : Line) :
    ((raiseDiscoveryNotice l s).line m).guard.params = (s.line m).guard.params := by
  rw [raiseDiscoveryNotice_eq, State.line_withReports]
  exact params_setLine (by rfl) m

theorem params_queueTail (r : RecordIndex) (s : State) (m : Line) :
    ((queueTail r s).line m).guard.params = (s.line m).guard.params := by
  apply params_updLine; split <;> rfl

theorem params_queueHead (r : RecordIndex) (s : State) (m : Line) :
    ((queueHead r s).line m).guard.params = (s.line m).guard.params := by
  apply params_updLine; split <;> rfl

theorem params_completeQueued (l : Line) (p : TransferRecord → Bool) (result : TransferResult)
    (s : State) (m : Line) :
    ((completeQueued l p result s).1.line m).guard.params = (s.line m).guard.params := by
  obtain ⟨-, -, hl, -, -, -, ho, -⟩ := completeQueued_spec l p result s
  by_cases hm : m = l
  · subst hm; rw [hl]
  · have hm : m = otherLine l := by cases l <;> cases m <;> simp_all [otherLine]
    rw [hm, ho]

theorem params_tellRecord (r : RecordIndex) (o : ExchangeOutcome) (gone lost stopping : Bool)
    (s : State) (m : Line) :
    ((tellRecord r o gone lost stopping s).line m).guard.params = (s.line m).guard.params := by
  rw [tellRecord_eq]
  split
  · simp
  · simp [params_queueTail]
  · simp [params_queueHead]

/-- A move keeps a line's parameters in range. -/
theorem inRange_of_move {c d : Config} (h : Move c d) (m : Line)
    (hc : (c.state.line m).guard.params.inRange = true) :
    (d.state.line m).guard.params.inRange = true := by
  cases h with
  | line l b h =>
    dsimp only at hc ⊢
    rw [State.line_setLine]
    split
    · rename_i hm; exact h.params (hm ▸ hc)
    · exact hc
  | lineNotice l =>
    dsimp only at hc ⊢
    rwa [params_raiseLineNotice]
  | runNotice l =>
    dsimp only at hc ⊢
    rwa [params_raiseDiscoveryNotice]
  | completeQueued l p result => exact (congrArg LineParams.inRange (params_completeQueued ..)).trans hc
  | tellRecord l r t o gone lost stopping _ =>
    exact (congrArg LineParams.inRange (params_tellRecord ..)).trans hc
  | completeFromQueue r result _ =>
    dsimp only at hc ⊢
    rw [completeFromQueue, completeRecord_eq, State.line_withReports, State.line_setRecord]
    rwa [params_updLine (l := (State.record _ r).line) rfl m]
  | submit r x _ _ _ =>
    refine (congrArg LineParams.inRange (params_queueTail ..)).trans ?_
    simpa using hc
  | pickRecord l r t _ _ =>
    dsimp only at hc ⊢
    rw [State.line_setRecord]
    rwa [params_updLine (l := l) rfl m]
  | nodeNotice i => simpa [raiseNodeNotice_eq] using hc
  | reserve l k h _ _ => simpa [reserveSlot] using hc
  | freeSlot l h k _ => simpa [freeSlot] using hc
  | fillSlot l h k payload _ => simpa [enqueue_withReports] using hc
  | node _ _ _ _ | fill _ _ _ _ _ | credit _ | awaitReset => simpa using hc
  | handOver _ _ _ _ _ | told _ _ _ _ _ => exact hc

theorem params_finishReport (s : State) (m : Line) :
    ((finishReport s).line m).guard.params = (s.line m).guard.params := by
  unfold finishReport
  split
  · rename_i src _ _
    cases src <;> simp [freeSource, idleTransmitter]
  · rfl

theorem params_sourceBegins (src : Source) (s : State) (m : Line) :
    ((sourceBegins src s).line m).guard.params = (s.line m).guard.params := by
  cases src with
  | line l => exact params_updLine rfl m
  | discovery l => exact params_updLine rfl m
  | completion _ | node _ | data _ | link => simp [sourceBegins]

theorem inRange_of_linkMove {c d : Config} (h : LinkMove c d) (m : Line)
    (hc : (c.state.line m).guard.params.inRange = true) :
    (d.state.line m).guard.params.inRange = true := by
  cases h with
  | notice f => simpa [raiseLinkNotice_eq] using hc
  | link f _ => simpa using hc
  | beginReport src rest _ _ =>
    dsimp only at hc ⊢
    rw [beginReport, State.line_updLink]
    exact (congrArg LineParams.inRange (params_sourceBegins ..)).trans hc
  | finishReport => exact (congrArg LineParams.inRange (params_finishReport ..)).trans hc
  | reset straps pin => cases m <;> rfl

theorem LineParams.missLimit_le {p : LineParams} (h : p.inRange = true) : p.missLimit.toNat ≤ 15 := by
  simp only [LineParams.inRange, within, Bool.and_eq_true, decide_eq_true_eq] at h
  omega

theorem State.MissFits.le {s : State} {new old : NodeEntry} (h : s.MissFits new old)
    (hp : ∀ l, (s.line l).guard.params.inRange = true) (ho : old.missRun ≤ 15) :
    new.missRun ≤ 15 := by
  obtain hle | ⟨l, hle⟩ := h
  · exact hle.trans ho
  · exact hle.trans (LineParams.missLimit_le (hp l))

theorem missRunsFit_of_move {c d : Config} (h : Move c d) (hc : MissRunsFit c.state) :
    MissRunsFit d.state := by
  refine ⟨fun m => inRange_of_move h m (hc.1 m), ?_⟩
  obtain hn | ⟨i, e, hn, hm, -⟩ | ⟨i, hn⟩ := node_of_move h <;> rw [hn]
  · exact hc.2
  · exact (Function.forall_update_iff _ fun _ (x : NodeEntry) => x.missRun ≤ 15).2
      ⟨hm.le hc.1 (hc.2 i), fun j _ => hc.2 j⟩
  · exact (Function.forall_update_iff _ fun _ (x : NodeEntry) => x.missRun ≤ 15).2
      ⟨hc.2 i, fun j _ => hc.2 j⟩

theorem missRunsFit_of_linkMove {c d : Config} (h : LinkMove c d) (hc : MissRunsFit c.state) :
    MissRunsFit d.state := by
  refine ⟨fun m => inRange_of_linkMove h m (hc.1 m), ?_⟩
  obtain hn | ⟨i, hn⟩ | hn := node_of_linkMove h
  · rw [hn]; exact hc.2
  · rw [hn]
    exact (Function.forall_update_iff _ fun _ (x : NodeEntry) => x.missRun ≤ 15).2
      ⟨hc.2 i, fun j _ => hc.2 j⟩
  · exact fun i => by rw [hn i]; exact Nat.zero_le _

/-- Every step keeps the miss runs within the greatest miss limit. -/
theorem missRunsFit_step {s t : State} (hs : MissRunsFit s) (ht : step s = .next t) :
    MissRunsFit t :=
  keeps_of_step (P := fun c => MissRunsFit c.state) missRunsFit_of_move missRunsFit_of_linkMove
    (fun q h => ⟨fun l => by cases l; exacts [h.1 .A, h.1 .B], h.2⟩) ht hs

end Sys2Proof.Machine

/-! The host link under every step: inbox, parser and timer agree, and an idle transmitter has nothing to
begin (R158 to R163). -/

namespace Sys2Proof.Machine

/-! ### What the moves leave of the link -/

theorem HostLink.Waits.sound {new old : HostLink} (h : new.Waits old) (ho : old.Sound) : new.Sound := by
  obtain ⟨h1, h2, h3, h4, h5⟩ := ho
  refine ⟨h.inbox ▸ h1, ?_, fun hw => h.resetPending (h3 (h.inbox ▸ hw)), ?_, h.parser ▸ h5⟩
  · rw [h.inbox, h.transmitter]
    exact h2
  · rw [h.parser, h.gapTimer]
    exact h4

/-- A change of the notice, the credits and the report in transmission. -/
theorem HostLink.Sound.of_report {new old : HostLink} (ho : old.Sound) (hi : new.inbox = old.inbox)
    (ht : new.transmitter.bind Transmission.replyMessage =
      old.transmitter.bind Transmission.replyMessage)
    (hr : new.resetPending = old.resetPending) (hp : new.parser = old.parser)
    (hg : new.gapTimer = old.gapTimer) : new.Sound := by
  obtain ⟨h1, h2, h3, h4, h5⟩ := ho
  refine ⟨hi ▸ h1, ?_, ?_, ?_, hp ▸ h5⟩
  · rw [hi, ht]
    exact h2
  · rw [hi, hr]
    exact h3
  · rw [hp, hg]
    exact h4

/-- What a source does as its report begins touches no more of the link than its notice. -/
theorem link_sourceBegins (src : Source) (s : State) :
    ∃ n, (sourceBegins src s).link = { s.link with notice := n } := by
  cases src <;> exact ⟨_, by simp [sourceBegins, State.updGuard_eq, State.updDiscovery_eq]; rfl⟩

theorem sound_beginReport {src : Source} {rest : List Source} {s : State}
    (ht : s.link.transmitter = none) (h : s.link.Sound) : (beginReport src rest s).link.Sound := by
  obtain ⟨n, hn⟩ := link_sourceBegins src { s with reports := rest }
  rw [beginReport, State.link_updLink, hn]
  exact h.of_report rfl (by rw [ht]; rfl) rfl rfl rfl

theorem link_freeSource (src : Source) (s : State) : (freeSource src s).link = s.link := by
  cases src <;> rfl

theorem sound_finishReport {s : State} (h : s.link.Sound) : (finishReport s).link.Sound := by
  unfold finishReport
  split
  · rename_i ht
    rw [link_freeSource]
    exact h.of_report rfl (by rw [ht]; rfl) rfl rfl rfl
  · exact h

theorem sound_of_move {c d : Config} (h : Move c d) (hc : c.state.link.Sound) : d.state.link.Sound :=
  (link_waits_of_move h).sound hc

theorem sound_of_linkMove {c d : Config} (h : LinkMove c d) (hc : c.state.link.Sound) :
    d.state.link.Sound := by
  cases h with
  | notice f =>
    dsimp only
    rw [raiseLinkNotice_eq, State.link_withReports, State.link_updLink]
    exact hc.of_report rfl rfl rfl rfl rfl
  | link f h => exact h.sound hc
  | beginReport src rest _ ht => exact sound_beginReport ht hc
  | finishReport => exact sound_finishReport hc
  | reset straps pin => exact ⟨Nat.zero_le _, rfl, (nomatch ·), fun _ => rfl, rfl⟩

/-! ### An arbiter with nothing to begin (R163) -/

/-- The transmitter is busy, or there is nothing to begin. -/
def State.Quiet (s : State) : Prop :=
  s.link.transmitter.isSome = true ∨ s.link.announcePending = none ∧
    takeOldestReady s.link.inbox = none ∧ (s.reports = [] ∨ s.link.credits = 0)

theorem arbitrate_busy {s : State} (h : s.link.transmitter.isSome = true) : arbitrate s = s := by
  obtain ⟨x, hx⟩ := Option.isSome_iff_exists.1 h
  simp [arbitrate, hx]

theorem arbitrate_announce {s : State} {c : ResetCause} (ht : s.link.transmitter = none)
    (hc : s.link.announcePending = some c) : arbitrate s = s.updLink fun k =>
      { k with announcePending := none, transmitter := some (.announce (announceMessage c)) } := by
  simp [arbitrate, ht, hc]

theorem arbitrate_reply {s : State} {m : Message} {taken : List InboxEntry}
    (ht : s.link.transmitter = none) (hc : s.link.announcePending = none)
    (hr : takeOldestReady s.link.inbox = some (m, taken)) : arbitrate s = s.updLink fun k =>
      { k with inbox := taken, transmitter := some (.reply m) } := by
  simp [arbitrate, ht, hc, hr]

theorem arbitrate_report {s : State} {src : Source} {rest : List Source}
    (ht : s.link.transmitter = none) (hc : s.link.announcePending = none)
    (hr : takeOldestReady s.link.inbox = none) (hq : s.reports = src :: rest)
    (hn : s.link.credits ≠ 0) : arbitrate s = beginReport src rest s := by
  simp only [arbitrate, ht, hc, hr, hq, if_neg hn]

theorem arbitrate_nothing {s : State} (hc : s.link.announcePending = none)
    (hr : takeOldestReady s.link.inbox = none) (hq : s.reports = [] ∨ s.link.credits = 0) :
    arbitrate s = s := by
  cases ht : s.link.transmitter with
  | some x => exact arbitrate_busy (by rw [ht]; rfl)
  | none =>
    cases hs : s.reports with
    | nil => simp [arbitrate, ht, hc, hr, hs]
    | cons src rest =>
      have hn : s.link.credits = 0 := hq.resolve_left (by simp [hs])
      simp [arbitrate, ht, hc, hr, hs, hn]

theorem arbitrate_of_quiet {s : State} (h : s.Quiet) : arbitrate s = s := by
  obtain h | ⟨hc, hr, hq⟩ := h
  · exact arbitrate_busy h
  · exact arbitrate_nothing hc hr hq

theorem transmitter_beginReport (src : Source) (rest : List Source) (s : State) :
    (beginReport src rest s).link.transmitter.isSome = true := rfl

/-- The arbiter leaves nothing to begin. -/
theorem quiet_arbitrate (s : State) : (arbitrate s).Quiet := by
  by_cases hb : s.link.transmitter.isSome = true
  · rw [arbitrate_busy hb]; exact .inl hb
  have ht : s.link.transmitter = none := by simpa using hb
  cases hc : s.link.announcePending with
  | some c => rw [arbitrate_announce ht hc]; exact .inl rfl
  | none =>
    cases hr : takeOldestReady s.link.inbox with
    | some p => rw [arbitrate_reply ht hc hr]; exact .inl rfl
    | none =>
      by_cases hq : s.reports = [] ∨ s.link.credits = 0
      · rw [arbitrate_nothing hc hr hq]; exact .inr ⟨hc, hr, hq⟩
      · obtain ⟨hs, hn⟩ := not_or.1 hq
        obtain ⟨src, rest, hs⟩ := List.exists_cons_of_ne_nil hs
        rw [arbitrate_report ht hc hr hs hn]
        exact .inl (transmitter_beginReport ..)

theorem quiet_iff (s : State) : arbitrate s = s ↔ s.Quiet :=
  ⟨fun h => h ▸ quiet_arbitrate s, arbitrate_of_quiet⟩

/-- What the arbiter looks at is as it was. -/
theorem State.Quiet.congr {s t : State} (h : s.Quiet)
    (ht : t.link.transmitter = s.link.transmitter)
    (hc : t.link.announcePending = s.link.announcePending) (hi : t.link.inbox = s.link.inbox)
    (hq : t.reports = s.reports) (hn : t.link.credits = s.link.credits) : t.Quiet := by
  unfold State.Quiet
  rw [ht, hc, hi, hq, hn]
  exact h

theorem quiet_blocksReset (straps : BitVec 2) (pin : ResetPin) (s : State) :
    (blocksReset straps pin s).Quiet := .inr ⟨rfl, rfl, .inl rfl⟩

/-! ### Every command leaves the arbiter quiet -/

/-- An outcome whose state has nothing to begin. -/
def QuietAfter (o : Host.Outcome State Fault Refusal) : Prop := ∀ t, o = .next t → t.Quiet

theorem quietAfter_next {t : State} (h : t.Quiet) : QuietAfter (.next t) := by
  rintro _ ⟨⟩
  exact h

theorem quietAfter_outOfReset {f : State → State} {s : State} (hs : s.Quiet) (h : (f s).Quiet) :
    QuietAfter (outOfReset f s) := by
  cases hp : s.resetPin with
  | high => rw [outOfReset_high f hp]; exact quietAfter_next h
  | low b => rw [outOfReset_low f hp]; exact quietAfter_next hs

theorem quietAfter_command (f : State → State) {s : State} (hs : s.Quiet) :
    QuietAfter (command f s) := quietAfter_outOfReset hs (quiet_arbitrate _)

theorem quiet_updLine {s : State} (h : s.Quiet) (l : Line) (f : LineBlock → LineBlock) :
    (s.updLine l f).Quiet :=
  h.congr (by rw [State.link_updLine]) (by rw [State.link_updLine]) (by rw [State.link_updLine])
    (State.reports_updLine ..) (by rw [State.link_updLine])

theorem quiet_verifyHostStart {s : State} (h : s.Quiet) : (verifyHostStart s).Quiet := by
  unfold verifyHostStart
  split
  · exact h.congr rfl rfl rfl rfl rfl
  · exact h
  · exact h

theorem quietAfter_exec (c : Instr) {s : State} (h : s.Quiet) : QuietAfter (exec c s) := by
  cases c with
  | hostBreak => exact quietAfter_outOfReset h (h.congr rfl rfl rfl rfl rfl)
  | hostStartVerified => exact quietAfter_outOfReset h (quiet_verifyHostStart h)
  | falseStart l => exact quietAfter_outOfReset h (quiet_updLine h l _)
  | startVerified l noisy => exact quietAfter_outOfReset h (quiet_updLine h l _)
  | receiverArmed l => exact quietAfter_outOfReset h (quiet_updLine h l _)
  | lineLevelChange l level =>
    show QuietAfter (execLineLevelChange l level s)
    unfold execLineLevelChange
    split <;> exact quietAfter_next (quiet_updLine h l _)
  | powerOnReset straps =>
    show QuietAfter (execPowerOnReset straps s)
    unfold execPowerOnReset
    split
    · exact quietAfter_next (quiet_blocksReset ..)
    · exact quietAfter_next (quiet_arbitrate _)
  | resetPinLow =>
    show QuietAfter (execResetPinLow s)
    unfold execResetPinLow
    split
    · exact quietAfter_next h
    · exact quietAfter_next (quiet_blocksReset ..)
  | resetPinRelease straps =>
    show QuietAfter (execResetPinRelease straps s)
    unfold execResetPinRelease
    split
    · exact quietAfter_next (quiet_arbitrate _)
    · exact quietAfter_next h
  | _ => exact quietAfter_command _ h

theorem quiet_step {s t : State} (h : s.Quiet) (ht : step s = .next t) : t.Quiet := by
  unfold step at ht
  split at ht
  · cases ht; exact h
  · rename_i c rest _
    have hrest : (s.withPending rest).Quiet := h.congr rfl rfl rfl rfl rfl
    exact quietAfter_exec c hrest t ht

/-- The link's own agreement, and the arbiter's. -/
theorem linkOk_iff (s : State) : LinkOk s ↔ s.link.Sound ∧ s.Quiet := by
  rw [← quiet_iff]
  exact ⟨fun ⟨h1, h2, h3, h4, h5, h6⟩ => ⟨⟨h1, h2, h3, h4, h5⟩, h6⟩,
    fun ⟨⟨h1, h2, h3, h4, h5⟩, h6⟩ => ⟨h1, h2, h3, h4, h5, h6⟩⟩

/-- Settles O9: every move keeps inbox, parser and timer agreed, and the arbiter ends every command that
may give it something to begin. -/
theorem hostLinkStaysConsistent : Obligations.HostLinkStaysConsistent := by
  intro s t hs ht
  obtain ⟨hsound, hquiet⟩ := (linkOk_iff s).1 hs
  exact (linkOk_iff t).2 ⟨keeps_of_step (P := fun c => c.state.link.Sound) sound_of_move
    sound_of_linkMove (fun _ => id) ht hsound, quiet_step hquiet ht⟩

end Sys2Proof.Machine

/-! The transfer pool under every move: each record in the place of its state, each tag held once
(R26 to R28, R32, R45, R46). -/

namespace Sys2Proof.Machine

/-! ### A record's place -/

/-- The record that an exchange waiting for its outcome carries, line by line. -/
def Config.flying (c : Config) (l : Line) : Option RecordIndex := (c.untold l).bind Carried.record

/-- A record stands in the place of its state: in its queue, in flight on its line, or waiting for its
report to begin or to end. -/
structure Config.Places (c : Config) (r : RecordIndex) : Prop where
  queued : ∀ l p, r ∈ (c.state.line l).queue p ↔
    (c.state.record r).state = .queued ∧ (c.state.record r).line = l ∧
      (c.state.record r).priority = p
  flying : ∀ l, c.flying l = some r ↔
    (c.state.record r).state = .inFlight ∧ (c.state.record r).line = l
  completed : (c.state.record r).state = .completed ↔
    .completion r ∈ c.state.reports ∨ c.state.sendingSource = some (.completion r)
  once : .completion r ∈ c.state.reports → c.state.sendingSource ≠ some (.completion r)

/-- `PoolOk`, record by record. -/
structure Config.PoolFits (c : Config) : Prop where
  reports : c.state.reports.Nodup
  queues : ∀ l p, ((c.state.line l).queue p).Nodup
  places : ∀ r, c.Places r
  tags : ∀ r q : RecordIndex, (c.state.record r).state ≠ .free → (c.state.record q).state ≠ .free →
    (c.state.record r).tag = (c.state.record q).tag → r = q

theorem State.flying_config (s : State) (l : Line) : s.config.flying l = (s.line l).flying := by
  simp only [Config.flying, State.config, State.untold, LineBlock.untold, LineBlock.flying,
    Option.bind_map]
  rfl

theorem queuesOk_of_poolFits {s : State} (h : s.config.PoolFits) (l : Line) : QueuesOk s l :=
  ⟨h.queues l .urgent, h.queues l .normal, fun r hr => ((h.places r).queued l .urgent).1 hr,
    fun r hr => ((h.places r).queued l .normal).1 hr, fun r hr =>
      ((h.places r).flying l).1 ((s.flying_config l).trans hr)⟩

theorem poolFits_of_poolOk {s : State} (h : PoolOk s) : s.config.PoolFits := by
  obtain ⟨hd, hA, hB, hqueued, hflying, hcompleted, honce, htags⟩ := h
  have hq (l : Line) : QueuesOk s l := by cases l <;> assumption
  refine ⟨hd, fun l p => ?_, fun r => ⟨fun l p => ⟨fun hr => ?_, ?_⟩, fun l => ⟨fun hr => ?_, ?_⟩,
    hcompleted r, honce r⟩, htags⟩
  · obtain ⟨hu, hn, -⟩ := hq l
    cases p <;> assumption
  · obtain ⟨-, -, hu, hn, -⟩ := hq l
    cases p with
    | urgent => exact hu r hr
    | normal => exact hn r hr
  · rintro ⟨hstate, rfl, rfl⟩
    exact hqueued r hstate
  · obtain ⟨-, -, -, -, hf⟩ := hq l
    exact hf r ((s.flying_config l).symm.trans hr)
  · rintro ⟨hstate, rfl⟩
    exact (s.flying_config _).trans (hflying r hstate)

theorem poolOk_iff (s : State) : PoolOk s ↔ s.config.PoolFits :=
  ⟨poolFits_of_poolOk, fun h => ⟨h.reports, queuesOk_of_poolFits h .A, queuesOk_of_poolFits h .B,
    fun r hr => ((h.places r).queued _ _).2 ⟨hr, rfl, rfl⟩,
    fun r hr => (s.flying_config _).symm.trans (((h.places r).flying _).2 ⟨hr, rfl⟩),
    fun r => (h.places r).completed, fun r => (h.places r).once, h.tags⟩⟩

/-! ### Changes that leave a record's place -/

/-- A record and its place are as they were. -/
theorem Config.Places.congr {c d : Config} {r : RecordIndex} (h : c.Places r)
    (hs : (d.state.record r).state = (c.state.record r).state)
    (hl : (d.state.record r).line = (c.state.record r).line)
    (hp : (d.state.record r).priority = (c.state.record r).priority)
    (hq : ∀ l p, r ∈ (d.state.line l).queue p ↔ r ∈ (c.state.line l).queue p)
    (hf : ∀ l, d.flying l = some r ↔ c.flying l = some r)
    (hr : .completion r ∈ d.state.reports ↔ .completion r ∈ c.state.reports)
    (ht : d.state.sendingSource = some (.completion r) ↔
      c.state.sendingSource = some (.completion r)) : d.Places r where
  queued l p := by rw [hq, hs, hl, hp]; exact h.queued l p
  flying l := by rw [hf, hs, hl]; exact h.flying l
  completed := by rw [hr, ht, hs]; exact h.completed
  once := by rw [hr, Ne, ht]; exact h.once

/-- No record, no queue and no exchange changes, and no COMPLETION report comes or goes. -/
theorem Config.PoolFits.congr {c d : Config} (h : c.PoolFits)
    (hx : ∀ r, d.state.record r = c.state.record r)
    (hq : ∀ l p, (d.state.line l).queue p = (c.state.line l).queue p)
    (hf : ∀ l, d.flying l = c.flying l) (hd : d.state.reports.Nodup)
    (hr : ∀ r, .completion r ∈ d.state.reports ↔ .completion r ∈ c.state.reports)
    (ht : ∀ r, d.state.sendingSource = some (.completion r) ↔
      c.state.sendingSource = some (.completion r)) : d.PoolFits where
  reports := hd
  queues l p := by rw [hq]; exact h.queues l p
  places r := (h.places r).congr (by rw [hx]) (by rw [hx]) (by rw [hx]) (fun l p => by rw [hq])
    (fun l => by rw [hf]) (hr r) (ht r)
  tags r q := by rw [hx, hx]; exact h.tags r q

/-- Nothing that the pool looks at changes. -/
theorem Config.PoolFits.of_same {c d : Config} (h : c.PoolFits)
    (hx : ∀ r, d.state.record r = c.state.record r)
    (hq : ∀ l p, (d.state.line l).queue p = (c.state.line l).queue p)
    (hf : ∀ l, d.flying l = c.flying l) (hr : d.state.reports = c.state.reports)
    (ht : d.state.sendingSource = c.state.sendingSource) : d.PoolFits :=
  h.congr hx hq hf (hr ▸ h.reports) (fun r => by rw [hr]) fun r => by rw [ht]

/-- A source of no COMPLETION report enters the queue. -/
theorem Config.PoolFits.of_enqueue {c d : Config} {src : Source} (h : c.PoolFits)
    (hs : ∀ r, src ≠ .completion r) (hx : ∀ r, d.state.record r = c.state.record r)
    (hq : ∀ l p, (d.state.line l).queue p = (c.state.line l).queue p)
    (hf : ∀ l, d.flying l = c.flying l) (hr : d.state.reports = enqueueAll [src] c.state.reports)
    (ht : d.state.sendingSource = c.state.sendingSource) : d.PoolFits :=
  h.congr hx hq hf (hr ▸ enqueueAll_nodup _ _ h.reports)
    (fun r => by simp [hr, mem_enqueueAll, (hs r).symm]) fun r => by rw [ht]

/-- No record that is not FREE takes a new tag. -/
theorem Config.PoolFits.keepTags {c d : Config} (h : c.PoolFits)
    (hx : ∀ r, (d.state.record r).state ≠ .free →
      (c.state.record r).state ≠ .free ∧ (d.state.record r).tag = (c.state.record r).tag)
    (r q : RecordIndex) (hr : (d.state.record r).state ≠ .free)
    (hq : (d.state.record q).state ≠ .free)
    (ht : (d.state.record r).tag = (d.state.record q).tag) : r = q := by
  obtain ⟨hr', htr⟩ := hx r hr
  obtain ⟨hq', htq⟩ := hx q hq
  exact h.tags r q hr' hq' (by rw [← htr, ht, htq])

/-! ### Records that change their place -/

/-- A record in flight is in no queue, and waits for no report. -/
theorem Config.Places.inFlight {c : Config} {r : RecordIndex} (h : c.Places r)
    (hs : (c.state.record r).state = .inFlight) :
    (∀ l p, r ∉ (c.state.line l).queue p) ∧ .completion r ∉ c.state.reports ∧
      c.state.sendingSource ≠ some (.completion r) := by
  refine ⟨fun l p hr => ?_, fun hr => ?_, fun ht => ?_⟩
  · exact absurd (hs.symm.trans ((h.queued l p).1 hr).1) (by decide)
  · exact absurd (hs.symm.trans (h.completed.2 (.inl hr))) (by decide)
  · exact absurd (hs.symm.trans (h.completed.2 (.inr ht))) (by decide)

/-- A FREE record is nowhere. -/
theorem Config.Places.free {c : Config} {r : RecordIndex} (h : c.Places r)
    (hs : (c.state.record r).state = .free) :
    (∀ l p, r ∉ (c.state.line l).queue p) ∧ (∀ l, c.flying l ≠ some r) ∧
      .completion r ∉ c.state.reports ∧ c.state.sendingSource ≠ some (.completion r) := by
  refine ⟨fun l p hr => ?_, fun l hf => ?_, fun hr => ?_, fun ht => ?_⟩
  · exact absurd (hs.symm.trans ((h.queued l p).1 hr).1) (by decide)
  · exact absurd (hs.symm.trans ((h.flying l).1 hf).1) (by decide)
  · exact absurd (hs.symm.trans (h.completed.2 (.inl hr))) (by decide)
  · exact absurd (hs.symm.trans (h.completed.2 (.inr ht))) (by decide)

/-- A QUEUED record is on no wire, and waits for no report. -/
theorem Config.Places.waits {c : Config} {r : RecordIndex} (h : c.Places r)
    (hs : (c.state.record r).state = .queued) :
    (∀ l, c.flying l ≠ some r) ∧ .completion r ∉ c.state.reports ∧
      c.state.sendingSource ≠ some (.completion r) := by
  refine ⟨fun l hf => ?_, fun hr => ?_, fun ht => ?_⟩
  · exact absurd (hs.symm.trans ((h.flying l).1 hf).1) (by decide)
  · exact absurd (hs.symm.trans (h.completed.2 (.inl hr))) (by decide)
  · exact absurd (hs.symm.trans (h.completed.2 (.inr ht))) (by decide)

/-- QUEUED records leave their queues and complete. -/
theorem Config.PoolFits.complete {c d : Config} {chosen : List RecordIndex}
    {result : TransferResult} (h : c.PoolFits)
    (hs : ∀ r ∈ chosen, (c.state.record r).state = .queued)
    (hx : ∀ r, d.state.record r =
      if r ∈ chosen then completedWith result (c.state.record r) else c.state.record r)
    (hd : ∀ l p, ((d.state.line l).queue p).Nodup)
    (hq : ∀ l p r, r ∈ (d.state.line l).queue p ↔ r ∈ (c.state.line l).queue p ∧ r ∉ chosen)
    (hf : ∀ l, d.flying l = c.flying l)
    (hr : d.state.reports = enqueueAll (chosen.map Source.completion) c.state.reports)
    (ht : d.state.sendingSource = c.state.sendingSource) : d.PoolFits := by
  have hmem (r : RecordIndex) : .completion r ∈ d.state.reports ↔
      .completion r ∈ c.state.reports ∨ r ∈ chosen := by
    simp [hr, mem_enqueueAll]
  refine ⟨hr ▸ enqueueAll_nodup _ _ h.reports, hd, fun r => ?_, h.keepTags fun r => ?_⟩
  · by_cases hc : r ∈ chosen
    · obtain ⟨hfly, hreport, hsending⟩ := (h.places r).waits (hs r hc)
      have hstate : (d.state.record r).state = .completed := by rw [hx, if_pos hc]; rfl
      refine ⟨fun l p => ?_, fun l => ?_, ?_, ?_⟩
      · simp [hq, hc, hstate]
      · simp [hf, hfly, hstate]
      · simp [hmem, hc, hstate]
      · simpa [ht] using fun _ => hsending
    · have hsame : d.state.record r = c.state.record r := by rw [hx, if_neg hc]
      exact (h.places r).congr (by rw [hsame]) (by rw [hsame]) (by rw [hsame])
        (fun l p => by simp [hq, hc]) (fun l => by rw [hf]) (by simp [hmem, hc]) (by rw [ht])
  · rw [hx]
    split
    · rename_i hc
      exact fun _ => ⟨by simp [hs r hc], rfl⟩
    · exact fun hr => ⟨hr, rfl⟩

/-- The record in flight on a line completes. -/
theorem Config.PoolFits.land {c d : Config} {l : Line} {r : RecordIndex} (h : c.PoolFits)
    (hfly : c.flying l = some r) (hs : (d.state.record r).state = .completed)
    (htag : (d.state.record r).tag = (c.state.record r).tag)
    (hx : ∀ q, q ≠ r → d.state.record q = c.state.record q)
    (hq : ∀ l p, (d.state.line l).queue p = (c.state.line l).queue p)
    (hf : ∀ m, d.flying m = if m = l then none else c.flying m)
    (hr : d.state.reports = enqueueAll [.completion r] c.state.reports)
    (ht : d.state.sendingSource = c.state.sendingSource) : d.PoolFits := by
  obtain ⟨hstate, hline⟩ := ((h.places r).flying l).1 hfly
  obtain ⟨hqueue, hreport, hsending⟩ := (h.places r).inFlight hstate
  refine ⟨hr ▸ enqueueAll_nodup _ _ h.reports, fun m p => hq m p ▸ h.queues m p, fun q => ?_,
    h.keepTags fun q hfree => ?_⟩
  · by_cases hqr : q = r
    · subst hqr
      refine ⟨fun m p => ?_, fun m => ?_, ?_, ?_⟩
      · simp [hq, hqueue, hs]
      · have hgone : d.flying m ≠ some q := by
          rw [hf]
          split
          · exact (nomatch ·)
          · rename_i hm
            exact fun hfm => hm ((((h.places q).flying m).1 hfm).2.symm.trans hline)
        simp [hgone, hs]
      · simp [hr, mem_enqueueAll, hs]
      · simpa [ht] using fun _ => hsending
    · have hne : ∀ m, d.flying m = some q ↔ c.flying m = some q := by
        intro m
        rw [hf]
        split
        · rename_i hm
          simp [hm, hfly, Ne.symm hqr]
        · rfl
      exact (h.places q).congr (by rw [hx q hqr]) (by rw [hx q hqr]) (by rw [hx q hqr])
        (fun m p => by rw [hq]) hne (by simp [hr, mem_enqueueAll, hqr]) (by rw [ht])
  · by_cases hqr : q = r
    · subst hqr
      exact ⟨by simp [hstate], htag⟩
    · rw [hx q hqr] at hfree ⊢
      exact ⟨hfree, rfl⟩

/-- A record that is in no queue and waits for no report joins the queue of its line and priority. -/
theorem Config.PoolFits.join {c d : Config} {r : RecordIndex} (h : c.PoolFits)
    (hqueue : ∀ l p, r ∉ (c.state.line l).queue p) (hreport : .completion r ∉ c.state.reports)
    (hsending : c.state.sendingSource ≠ some (.completion r))
    (hs : (d.state.record r).state = .queued)
    (hx : ∀ q, q ≠ r → d.state.record q = c.state.record q)
    (hd : ∀ l p, ((d.state.line l).queue p).Nodup)
    (hq : ∀ l p q, q ∈ (d.state.line l).queue p ↔ q ∈ (c.state.line l).queue p ∨
      q = r ∧ l = (d.state.record r).line ∧ p = (d.state.record r).priority)
    (hfly : ∀ l, d.flying l ≠ some r)
    (hf : ∀ l q, q ≠ r → (d.flying l = some q ↔ c.flying l = some q))
    (hr : d.state.reports = c.state.reports)
    (ht : d.state.sendingSource = c.state.sendingSource)
    (htags : ∀ q, q ≠ r → (c.state.record q).state ≠ .free →
      (c.state.record q).tag ≠ (d.state.record r).tag) : d.PoolFits := by
  refine ⟨hr ▸ h.reports, hd, fun q => ?_, fun q q' hfree hfree' htag => ?_⟩
  · by_cases hqr : q = r
    · subst hqr
      refine ⟨fun m p => ?_, fun m => ?_, ?_, ?_⟩
      · simp [hq, hqueue, hs, eq_comm]
      · simp [hfly, hs]
      · simp [hr, ht, hreport, hsending, hs]
      · simp [hr, hreport]
    · exact (h.places q).congr (by rw [hx q hqr]) (by rw [hx q hqr]) (by rw [hx q hqr])
        (fun m p => by simp [hq, hqr]) (fun m => hf m q hqr) (by rw [hr]) (by rw [ht])
  · by_cases hqr : q = r <;> by_cases hqr' : q' = r
    · rw [hqr, hqr']
    · subst hqr
      rw [hx q' hqr'] at hfree' htag
      exact absurd htag.symm (htags q' hqr' hfree')
    · subst hqr'
      rw [hx q hqr] at hfree htag
      exact absurd htag (htags q hqr hfree)
    · rw [hx q hqr] at hfree htag
      rw [hx q' hqr'] at hfree' htag
      exact h.tags q q' hfree hfree' htag

/-- A queued record leaves its queue for an engine. -/
theorem Config.PoolFits.depart {c d : Config} {l : Line} {r : RecordIndex} (h : c.PoolFits)
    (hr : (c.state.record r).state = .queued) (hl : (c.state.record r).line = l)
    (hidle : c.flying l = none) (hs : (d.state.record r).state = .inFlight)
    (hline : (d.state.record r).line = l) (htag : (d.state.record r).tag = (c.state.record r).tag)
    (hx : ∀ q, q ≠ r → d.state.record q = c.state.record q)
    (hd : ∀ m p, ((d.state.line m).queue p).Nodup)
    (hq : ∀ m p q, q ∈ (d.state.line m).queue p ↔ q ∈ (c.state.line m).queue p ∧ q ≠ r)
    (hf : ∀ m, d.flying m = if m = l then some r else c.flying m)
    (hreports : d.state.reports = c.state.reports)
    (ht : d.state.sendingSource = c.state.sendingSource) : d.PoolFits := by
  obtain ⟨hfly, hreport, hsending⟩ := (h.places r).waits hr
  refine ⟨hreports ▸ h.reports, hd, fun q => ?_, h.keepTags fun q hfree => ?_⟩
  · by_cases hqr : q = r
    · subst hqr
      refine ⟨fun m p => ?_, fun m => ?_, ?_, ?_⟩
      · simp [hq, hs]
      · rw [hf, hs, hline]
        split
        · rename_i hm; simp [hm]
        · rename_i hm; simp [hfly, Ne.symm hm]
      · simp [hreports, ht, hreport, hsending, hs]
      · simp [hreports, hreport]
    · have hne : ∀ m, d.flying m = some q ↔ c.flying m = some q := by
        intro m
        rw [hf]
        split
        · rename_i hm
          simp [hm, hidle, Ne.symm hqr]
        · rfl
      exact (h.places q).congr (by rw [hx q hqr]) (by rw [hx q hqr]) (by rw [hx q hqr])
        (fun m p => by simp [hq, hqr]) hne (by rw [hreports]) (by rw [ht])
  · by_cases hqr : q = r
    · subst hqr
      exact ⟨by simp [hr], htag⟩
    · rw [hx q hqr] at hfree ⊢
      exact ⟨hfree, rfl⟩

end Sys2Proof.Machine

/-! The transfer pool: each move is one of the changes that keep it. -/

namespace Sys2Proof.Machine

/-! ### Queues, flights and transmissions after a move -/

theorem Config.flying_update (s : State) (u : Line → Option Carried) (l : Line) (c : Option Carried)
    (m : Line) : Config.flying ⟨s, Function.update u l c⟩ m =
      if m = l then c.bind Carried.record else (u m).bind Carried.record := by
  unfold Config.flying
  dsimp only
  rw [Function.update_apply]
  split <;> rfl

/-- An exchange comes or goes that carries no record. -/
theorem Config.flying_update_same {s t : State} {u : Line → Option Carried} {l : Line}
    {c : Option Carried} (h : c.bind Carried.record = (u l).bind Carried.record) (m : Line) :
    Config.flying ⟨t, Function.update u l c⟩ m = Config.flying ⟨s, u⟩ m := by
  rw [Config.flying_update, Config.flying]
  split
  · rename_i hm; rw [hm, h]
  · rfl

theorem State.sendingSource_congr {s t : State} (h : t.link.transmitter = s.link.transmitter) :
    t.sendingSource = s.sendingSource := by rw [State.sendingSource, h]; rfl

theorem sendingSource_of_move {c d : Config} (h : Move c d) :
    d.state.sendingSource = c.state.sendingSource :=
  State.sendingSource_congr (link_waits_of_move h).transmitter

theorem State.queue_setLine {s : State} {l : Line} {b : LineBlock}
    (hu : b.urgent = (s.line l).urgent) (hn : b.normal = (s.line l).normal) (m : Line)
    (p : Priority) : ((s.setLine l b).line m).queue p = (s.line m).queue p := by
  rw [State.line_setLine]
  split
  · rename_i hm
    subst hm
    cases p
    · exact hn
    · exact hu
  · rfl

theorem State.record_updLine (s : State) (l : Line) (f : LineBlock → LineBlock) (q : RecordIndex) :
    (s.updLine l f).record q = s.record q := by rw [State.updLine_eq, State.record_setLine]

theorem mem_queue_queueTail (r : RecordIndex) (s : State) (l : Line) (p : Priority)
    (q : RecordIndex) : q ∈ ((queueTail r s).line l).queue p ↔ q ∈ (s.line l).queue p ∨
      q = r ∧ l = (s.record r).line ∧ p = (s.record r).priority := by
  rw [queueTail, State.updLine_eq, State.line_setLine]
  split
  · rename_i hl
    subst hl
    cases hp : (s.record r).priority <;> cases p <;> simp [LineBlock.queue]
  · rename_i hl
    simp [hl]

theorem mem_queue_queueHead (r : RecordIndex) (s : State) (l : Line) (p : Priority)
    (q : RecordIndex) : q ∈ ((queueHead r s).line l).queue p ↔ q ∈ (s.line l).queue p ∨
      q = r ∧ l = (s.record r).line ∧ p = (s.record r).priority := by
  rw [queueHead, State.updLine_eq, State.line_setLine]
  split
  · rename_i hl
    subst hl
    cases hp : (s.record r).priority <;> cases p <;> simp [LineBlock.queue, or_comm]
  · rename_i hl
    simp [hl]

theorem nodup_append_of_not_mem {q : List RecordIndex} {r : RecordIndex} (h : q.Nodup)
    (hr : r ∉ q) : (q ++ [r]).Nodup := by
  rw [List.nodup_append]
  refine ⟨h, by simp, fun a ha b hb => ?_⟩
  rw [List.mem_singleton.1 hb]
  rintro rfl
  exact hr ha

theorem nodup_queueTail {r : RecordIndex} {s : State}
    (hd : ∀ l p, ((s.line l).queue p).Nodup) (hr : ∀ l p, r ∉ (s.line l).queue p) (l : Line)
    (p : Priority) : (((queueTail r s).line l).queue p).Nodup := by
  rw [queueTail, State.updLine_eq, State.line_setLine]
  split
  · rename_i hl
    subst hl
    have htail := nodup_append_of_not_mem (hd (s.record r).line p) (hr _ p)
    have hsame := hd (s.record r).line p
    cases hp : (s.record r).priority <;> cases p <;> assumption
  · exact hd l p

theorem nodup_queueHead {r : RecordIndex} {s : State}
    (hd : ∀ l p, ((s.line l).queue p).Nodup) (hr : ∀ l p, r ∉ (s.line l).queue p) (l : Line)
    (p : Priority) : (((queueHead r s).line l).queue p).Nodup := by
  rw [queueHead, State.updLine_eq, State.line_setLine]
  split
  · rename_i hl
    subst hl
    have hhead := List.nodup_cons.2 ⟨hr _ p, hd (s.record r).line p⟩
    have hsame := hd (s.record r).line p
    cases hp : (s.record r).priority <;> cases p <;> assumption
  · exact hd l p

/-! ### The moves of the pool -/

section
variable {s : State} {u : Line → Option Carried} (h : Config.PoolFits ⟨s, u⟩)
include h

theorem poolFits_completeQueued (l : Line) (p : TransferRecord → Bool) (result : TransferResult) :
    Config.PoolFits ⟨(completeQueued l p result s).1, u⟩ := by
  obtain ⟨-, hrecord, hl, hreports, -, -, ho, hlink, -⟩ := completeQueued_spec l p result s
  have hqueue (m : Line) (π : Priority) : ((completeQueued l p result s).1.line m).queue π =
      if m = l then ((s.line m).queue π).filter fun r => !p (s.record r)
      else (s.line m).queue π := by
    split
    · rename_i hm; subst hm; rw [hl]; cases π <;> rfl
    · rename_i hm
      have hm : m = otherLine l := by cases l <;> cases m <;> simp_all [otherLine]
      rw [hm, ho]
  have hmem (r : RecordIndex) : r ∈ (s.line l).queued ↔ ∃ π, r ∈ (s.line l).queue π := by
    simp only [LineBlock.queued, List.mem_append]
    exact ⟨fun hr => hr.elim (⟨.urgent, ·⟩) (⟨.normal, ·⟩), fun ⟨π, hr⟩ => by
      cases π
      · exact .inr hr
      · exact .inl hr⟩
  refine h.complete (fun r hr => ?_) hrecord (fun m π => ?_) (fun m π r => ?_) (fun _ => rfl)
    hreports (State.sendingSource_congr (by rw [hlink]))
  · obtain ⟨π, hq⟩ := (hmem r).1 (List.mem_filter.1 hr).1
    exact (((h.places r).queued l π).1 hq).1
  · dsimp only
    rw [hqueue]
    split
    · exact (h.queues m π).filter _
    · exact h.queues m π
  · dsimp only
    rw [hqueue, List.mem_filter, hmem]
    split
    · rename_i hm
      subst hm
      rw [List.mem_filter]
      refine and_congr_right fun hr => ?_
      have : ∃ π, r ∈ (s.line m).queue π := ⟨π, hr⟩
      simp [this]
    · rename_i hm
      refine (and_iff_left_of_imp fun hr hc => hm ?_).symm
      obtain ⟨⟨π', hr'⟩, -⟩ := hc
      exact (((h.places r).queued m π).1 hr).2.1.symm.trans (((h.places r).queued l π').1 hr').2.1

theorem poolFits_completeFromQueue {r : RecordIndex} (result : TransferResult)
    (hr : (s.record r).state = .queued) : Config.PoolFits ⟨completeFromQueue r result s, u⟩ := by
  have hqueue (m : Line) (π : Priority) : ((completeFromQueue r result s).line m).queue π =
      if m = (s.record r).line then ((s.line m).queue π).erase r else (s.line m).queue π := by
    rw [completeFromQueue, completeRecord_eq, State.line_withReports, State.line_setRecord,
      State.updLine_eq, State.line_setLine]
    split
    · rename_i hm; subst hm; cases π <;> rfl
    · rfl
  refine h.complete (chosen := [r]) (result := result) (fun q hq => List.mem_singleton.1 hq ▸ hr)
    (fun q => ?_) (fun m π => ?_) (fun m π q => ?_) (fun _ => rfl) ?_ ?_
  · dsimp only
    rw [completeFromQueue, completeRecord_eq, State.record_withReports, State.record_setRecord,
      State.record_updLine, State.record_updLine]
    simp only [List.mem_singleton]
    split
    · rename_i hq; rw [hq]
    · rfl
  · dsimp only
    rw [hqueue]
    split
    · exact (h.queues m π).erase r
    · exact h.queues m π
  · dsimp only
    rw [hqueue, List.mem_singleton]
    split
    · rw [(h.queues m π).mem_erase_iff, and_comm]
    · rename_i hm
      refine (and_iff_left_of_imp fun hq hqr => hm ?_).symm
      subst hqr
      exact (((h.places q).queued m π).1 hq).2.1.symm
  · simp [completeFromQueue, completeRecord_eq, State.reports_updLine]
  · exact State.sendingSource_congr (by
      simp [completeFromQueue, completeRecord_eq, State.link_updLine])

theorem poolFits_submit {r : RecordIndex} {x : TransferRecord} (hr : (s.record r).state = .free)
    (hx : x.state = .queued)
    (htag : ∀ q : RecordIndex, (s.record q).state ≠ .free → (s.record q).tag ≠ x.tag) :
    Config.PoolFits ⟨queueTail r (s.setRecord r x), u⟩ := by
  obtain ⟨hqueue, hfly, hreport, hsending⟩ := (h.places r).free hr
  have hrecord (q : RecordIndex) : (queueTail r (s.setRecord r x)).record q =
      if q = r then x else s.record q := by
    rw [queueTail, State.record_updLine, State.record_setRecord]
  refine h.join hqueue hreport hsending (by simp [hrecord, hx]) (fun q hq => by simp [hrecord, hq])
    (nodup_queueTail (by simpa using h.queues) (by simpa using hqueue)) (fun m π q => ?_) hfly
    (fun _ _ _ => Iff.rfl) (by simp) (State.sendingSource_congr (by rw [link_queueTail]; rfl))
    (fun q hq => by simpa [hrecord] using htag q)
  simp [mem_queue_queueTail, hrecord]

theorem poolFits_pickRecord {l : Line} {r : RecordIndex} {t : Option Handle} (hu : u l = none)
    (hr : r ∈ (s.line l).queued) :
    Config.PoolFits ⟨(s.updLine l fun b => { b with
        urgent := b.urgent.erase r, normal := b.normal.erase r }).setRecord r
      { s.record r with state := .inFlight, deadline := none, deadlineTimer := none },
      Function.update u l (some (.transfer r t))⟩ := by
  obtain ⟨π, hπ⟩ : ∃ π, r ∈ (s.line l).queue π := by
    simp only [LineBlock.queued, List.mem_append] at hr
    exact hr.elim (⟨.urgent, ·⟩) (⟨.normal, ·⟩)
  obtain ⟨hstate, hline, -⟩ := ((h.places r).queued l π).1 hπ
  have hqueue (m : Line) (π : Priority) : ((s.updLine l fun b => { b with
      urgent := b.urgent.erase r, normal := b.normal.erase r }).line m).queue π =
      if m = l then ((s.line m).queue π).erase r else (s.line m).queue π := by
    rw [State.updLine_eq, State.line_setLine]
    split
    · rename_i hm; subst hm; cases π <;> rfl
    · rfl
  refine h.depart hstate hline (by simp [Config.flying, hu]) (by simp) (by simpa using hline)
    (by simp) (fun q hq => by simp [State.record_setRecord, hq, State.record_updLine])
    (fun m π => ?_) (fun m π q => ?_) (fun m => Config.flying_update ..)
    (by simp [State.reports_updLine])
    (State.sendingSource_congr (by simp [State.link_updLine]))
  · rw [State.line_setRecord, hqueue]
    split
    · exact (h.queues m π).erase r
    · exact h.queues m π
  · dsimp only
    rw [State.line_setRecord, hqueue]
    split
    · rw [(h.queues m π).mem_erase_iff, and_comm]
    · rename_i hm
      refine (and_iff_left_of_imp fun hq hqr => hm ?_).symm
      subst hqr
      exact (((h.places q).queued m π).1 hq).2.1.symm.trans hline

/-- A record in flight goes back to its queue, by a write that puts it there. -/
theorem poolFits_requeue {l : Line} {r : RecordIndex} {t : Option Handle} {put : State → State}
    {x : TransferRecord} (hu : u l = some (.transfer r t)) (hx : x.state = .queued)
    (htag : x.tag = (s.record r).tag)
    (hrecord : ∀ (v : State) q, (put v).record q = v.record q)
    (hlink : ∀ v : State, (put v).link = v.link)
    (hreports : ∀ v : State, (put v).reports = v.reports)
    (hd : ∀ v : State, (∀ l p, ((v.line l).queue p).Nodup) → (∀ l p, r ∉ (v.line l).queue p) →
      ∀ l p, (((put v).line l).queue p).Nodup)
    (hq : ∀ (v : State) l p q, q ∈ ((put v).line l).queue p ↔ q ∈ (v.line l).queue p ∨
      q = r ∧ l = (v.record r).line ∧ p = (v.record r).priority) :
    Config.PoolFits ⟨put (s.setRecord r x), Function.update u l none⟩ := by
  have hfly : Config.flying ⟨s, u⟩ l = some r := by simp [Config.flying, hu, Carried.record]
  obtain ⟨hstate, hline⟩ := ((h.places r).flying l).1 hfly
  obtain ⟨hqueue, hreport, hsending⟩ := (h.places r).inFlight hstate
  have hnone (m : Line) : Config.flying ⟨put (s.setRecord r x), Function.update u l none⟩ m =
      if m = l then none else Config.flying ⟨s, u⟩ m := Config.flying_update ..
  refine h.join hqueue hreport hsending (by simp [hrecord, hx])
    (fun q hqr => by simp [hrecord, State.record_setRecord, hqr])
    (hd _ (by simpa using h.queues) (by simpa using hqueue)) (fun m π q => by simp [hq, hrecord])
    (fun m => ?_) (fun m q hqr => ?_) (by simp [hreports])
    (State.sendingSource_congr (by simp [hlink])) (fun q hqr hfree hsame => ?_)
  · rw [hnone]
    split
    · exact (nomatch ·)
    · rename_i hm
      exact fun hm' => hm ((((h.places r).flying m).1 hm').2.symm.trans hline)
  · rw [hnone]
    split
    · rename_i hm; simp [hm, hfly, Ne.symm hqr]
    · rfl
  · simp only [hrecord, State.record_setRecord_self, htag] at hsame
    exact hqr (h.tags q r hfree (by simp [hstate]) hsame)

theorem poolFits_tellRecord {l : Line} {r : RecordIndex} {t : Option Handle} (o : ExchangeOutcome)
    (gone lost stopping : Bool) (hu : u l = some (.transfer r t)) :
    Config.PoolFits ⟨tellRecord r o gone lost stopping s, Function.update u l none⟩ := by
  rw [tellRecord_eq]
  split
  · have hfly : Config.flying ⟨s, u⟩ l = some r := by simp [Config.flying, hu, Carried.record]
    exact h.land hfly (by simp [completedWith]) (by simp [completedWith, TransferRecord.attempted])
      (fun q hq => by simp [State.record_setRecord, hq]) (fun m π => by simp)
      (fun m => Config.flying_update ..) (by simp) (State.sendingSource_congr (by simp))
  · exact poolFits_requeue h hu rfl rfl (fun v q => State.record_updLine ..)
      (fun v => link_queueTail r v) (fun v => reports_queueTail r v) (fun v => nodup_queueTail)
      (fun v => mem_queue_queueTail r v)
  · exact poolFits_requeue h hu rfl rfl (fun v q => State.record_updLine ..)
      (fun v => State.link_updLine ..) (fun v => reports_queueHead r v) (fun v => nodup_queueHead)
      (fun v => mem_queue_queueHead r v)

end

/-- Every move of a command within the part keeps the pool. -/
theorem poolFits_of_move {c d : Config} (h : Move c d) (hc : c.PoolFits) : d.PoolFits := by
  have hsending := sendingSource_of_move h
  cases h with
  | line l b hb =>
    exact hc.of_same (fun r => by simp) (State.queue_setLine hb.urgent hb.normal) (fun _ => rfl)
      (by simp) hsending
  | node i e _ _ => exact hc.of_same (fun r => by simp) (fun _ _ => by simp) (fun _ => rfl) (by simp) hsending
  | fill i e _ _ _ => exact hc.of_same (fun r => by simp) (fun _ _ => by simp) (fun _ => rfl) (by simp) hsending
  | nodeNotice i =>
    exact hc.of_enqueue (src := .node i) (fun _ => (nomatch ·)) (fun r => by simp [raiseNodeNotice_eq])
      (fun _ _ => by simp [raiseNodeNotice_eq]) (fun _ => rfl) (reports_raiseNodeNotice ..) hsending
  | lineNotice l =>
    exact hc.of_enqueue (src := .line l) (fun _ => (nomatch ·)) (fun r => by simp [raiseLineNotice_eq])
      (fun m p => by
        rw [raiseLineNotice_eq, State.line_withReports]
        exact State.queue_setLine (by rfl) (by rfl) m p)
      (fun _ => rfl) (reports_raiseLineNotice ..) hsending
  | runNotice l =>
    exact hc.of_enqueue (src := .discovery l) (fun _ => (nomatch ·))
      (fun r => by simp [raiseDiscoveryNotice_eq])
      (fun m p => by
        rw [raiseDiscoveryNotice_eq, State.line_withReports]
        exact State.queue_setLine (by rfl) (by rfl) m p)
      (fun _ => rfl) (reports_raiseDiscoveryNotice ..) hsending
  | completeQueued l p result => exact poolFits_completeQueued hc l p result
  | completeFromQueue r result hr => exact poolFits_completeFromQueue hc result hr
  | submit r x hr hx htag => exact poolFits_submit hc hr hx htag
  | pickRecord l r t hu hr => exact poolFits_pickRecord hc hu hr
  | reserve l k h hu _ =>
    exact hc.of_same (fun r => by simp [reserveSlot]) (fun _ _ => by simp [reserveSlot])
      (Config.flying_update_same (by simp [hu, Carried.record])) (by simp [reserveSlot]) hsending
  | handOver l c hu hr _ =>
    exact hc.of_same (fun _ => rfl) (fun _ _ => rfl) (Config.flying_update_same (by simp [hu, hr])) rfl
      hsending
  | told l c hu hr _ =>
    exact hc.of_same (fun _ => rfl) (fun _ _ => rfl) (Config.flying_update_same (by simp [hu, hr])) rfl
      hsending
  | tellRecord l r t o gone lost stopping hu => exact poolFits_tellRecord hc o gone lost stopping hu
  | freeSlot l h k hu =>
    exact hc.of_same (fun r => by simp [freeSlot]) (fun _ _ => by simp [freeSlot])
      (Config.flying_update_same (by simp [hu, Carried.record])) (by simp [freeSlot]) hsending
  | fillSlot l h k payload hu =>
    exact hc.of_enqueue (src := .data k) (fun _ => (nomatch ·)) (fun r => by simp [enqueue_withReports])
      (fun _ _ => by simp [enqueue_withReports])
      (Config.flying_update_same (by simp [hu, Carried.record])) (by simp [enqueue_withReports]) hsending
  | credit n => exact hc.of_same (fun _ => rfl) (fun _ _ => by simp) (fun _ => rfl) rfl hsending
  | awaitReset => exact hc.of_same (fun _ => rfl) (fun _ _ => by simp) (fun _ => rfl) rfl hsending

/-! ### The moves of the host link -/

theorem queue_sourceBegins (src : Source) (s : State) (l : Line) (p : Priority) :
    ((sourceBegins src s).line l).queue p = (s.line l).queue p := by
  cases src with
  | line m => exact State.queue_setLine (by rfl) (by rfl) l p
  | discovery m => exact State.queue_setLine (by rfl) (by rfl) l p
  | completion _ | node _ | data _ | link => simp [sourceBegins]

theorem record_sourceBegins (src : Source) (s : State) (r : RecordIndex) :
    (sourceBegins src s).record r = s.record r := by
  cases src <;> simp [sourceBegins, State.updGuard_eq, State.updDiscovery_eq]

theorem State.sendingSource_none {s : State} (h : s.link.transmitter = none) :
    s.sendingSource = none := by simp [State.sendingSource, h]

theorem sendingSource_beginReport (src : Source) (rest : List Source) (s : State) :
    (beginReport src rest s).sendingSource = some src := rfl

theorem reports_beginReport (src : Source) (rest : List Source) (s : State) :
    (beginReport src rest s).reports = rest := by
  rw [beginReport, State.reports_updLink, reports_sourceBegins]

/-- The head report begins: a COMPLETED record waits for its end instead. -/
theorem poolFits_beginReport {s : State} {u : Line → Option Carried} {src : Source}
    {rest : List Source} (hq : s.reports = src :: rest) (ht : s.link.transmitter = none)
    (h : Config.PoolFits ⟨s, u⟩) : Config.PoolFits ⟨beginReport src rest s, u⟩ := by
  have hd : (src :: rest).Nodup := hq ▸ h.reports
  obtain ⟨hsrc, hrest⟩ := List.nodup_cons.1 hd
  have hnone : s.sendingSource = none := State.sendingSource_none ht
  have hrecord (r : RecordIndex) : (beginReport src rest s).record r = s.record r := by
    rw [beginReport, State.record_updLink, record_sourceBegins]; rfl
  have hqueue (l : Line) (p : Priority) :
      ((beginReport src rest s).line l).queue p = (s.line l).queue p := by
    rw [beginReport, State.line_updLink, queue_sourceBegins]
    exact congrArg (LineBlock.queue · p) (State.line_withReports s rest l)
  refine ⟨by simpa [reports_beginReport] using hrest, fun l p => hqueue l p ▸ h.queues l p,
    fun r => ⟨fun l p => ?_, fun l => ?_, ?_, ?_⟩, fun r q => ?_⟩
  · dsimp only
    rw [hqueue, hrecord]
    exact (h.places r).queued l p
  · dsimp only
    rw [hrecord]
    exact (h.places r).flying l
  · dsimp only
    rw [hrecord, (h.places r).completed, reports_beginReport, sendingSource_beginReport]
    simp [hq, hnone, or_comm, eq_comm]
  · dsimp only
    rw [reports_beginReport, sendingSource_beginReport]
    rintro hr ⟨⟩
    exact hsrc hr
  · dsimp only
    rw [hrecord, hrecord]
    exact h.tags r q

theorem queue_finishReport (s : State) (l : Line) (p : Priority) :
    ((finishReport s).line l).queue p = (s.line l).queue p := by
  unfold finishReport
  split
  · rename_i src _ _
    cases src <;> simp [freeSource, idleTransmitter]
  · rfl

theorem sendingSource_finishReport (s : State) : (finishReport s).sendingSource = none := by
  unfold finishReport
  split
  · rename_i src _ _
    cases src <;> rfl
  · rename_i hne
    cases ht : s.link.transmitter with
    | none => exact State.sendingSource_none ht
    | some x =>
      cases x with
      | report src m => exact absurd ht (hne src m)
      | announce m | reply m => simp [State.sendingSource, ht, Transmission.source]

/-- The end of a COMPLETION report frees its record; no other record changes (R46). -/
theorem record_finishReport (s : State) (r : RecordIndex) : (finishReport s).record r =
    if s.sendingSource = some (.completion r) then { s.record r with state := .free }
    else s.record r := by
  unfold finishReport
  split
  · rename_i src m ht
    have hsrc : s.sendingSource = some src := by simp [State.sendingSource, ht, Transmission.source]
    rw [hsrc]
    cases src with
    | completion q =>
      simp only [freeSource, State.record_setRecord, Option.some.injEq, Source.completion.injEq]
      by_cases hq : r = q
      · subst hq; simp [idleTransmitter]
      · simp [hq, Ne.symm hq, idleTransmitter]
    | node _ | data _ | line _ | discovery _ | link => simp [freeSource, idleTransmitter]
  · rename_i hne
    have hsrc : s.sendingSource ≠ some (.completion r) := by
      intro hs
      simp only [State.sendingSource, Option.bind_eq_some_iff] at hs
      obtain ⟨x, hx, hxs⟩ := hs
      cases x with
      | report src m => exact hne src m hx
      | announce m | reply m => cases hxs
    rw [if_neg hsrc]

/-- The record whose report ends is freed. -/
theorem poolFits_finishReport {s : State} {u : Line → Option Carried}
    (h : Config.PoolFits ⟨s, u⟩) : Config.PoolFits ⟨finishReport s, u⟩ := by
  have hrecord := record_finishReport s
  refine ⟨by rw [reports_finishReport]; exact h.reports, fun l p => queue_finishReport s l p ▸ h.queues l p,
    fun r => ?_, h.keepTags fun r hfree => ?_⟩
  · by_cases hr : s.sendingSource = some (.completion r)
    · have hdone : (s.record r).state = .completed := (h.places r).completed.2 (.inr hr)
      have hfree : ((finishReport s).record r).state = .free := by rw [hrecord, if_pos hr]
      refine ⟨fun l p => ?_, fun l => ?_, ?_, ?_⟩
      · simp [queue_finishReport, hfree, (h.places r).queued l p, hdone]
      · have hfly : Config.flying ⟨s, u⟩ l ≠ some r := fun hf =>
          absurd (hdone.symm.trans (((h.places r).flying l).1 hf).1) (by decide)
        exact iff_of_false hfly (by simp [hfree])
      · simpa [hfree, reports_finishReport, sendingSource_finishReport] using
          mt (h.places r).once (not_not.2 hr)
      · simp [sendingSource_finishReport]
    · have hsame : (finishReport s).record r = s.record r := by rw [hrecord, if_neg hr]
      exact (h.places r).congr (by rw [hsame]) (by rw [hsame]) (by rw [hsame])
        (fun l p => by rw [queue_finishReport]) (fun l => Iff.rfl) (by rw [reports_finishReport])
        (iff_of_false (by simp [sendingSource_finishReport]) hr)
  · dsimp only at hfree ⊢
    rw [hrecord] at hfree ⊢
    split at hfree
    · simp at hfree
    · rename_i hr
      rw [if_neg hr]
      exact ⟨hfree, rfl⟩

theorem record_blocksReset (straps : BitVec 2) (pin : ResetPin) (s : State) (r : RecordIndex) :
    (blocksReset straps pin s).record r = .reset := by
  simp [State.record, blocksReset, State.blocksReset, Vector.get]

theorem poolFits_reset (straps : BitVec 2) (pin : ResetPin) (s : State) :
    Config.PoolFits ⟨blocksReset straps pin s, fun _ => none⟩ := by
  have hfree (r : RecordIndex) : ((blocksReset straps pin s).record r).state = .free := by
    rw [record_blocksReset]; rfl
  have hqueue (l : Line) (p : Priority) : ((blocksReset straps pin s).line l).queue p = [] := by
    cases l <;> cases p <;> rfl
  refine ⟨List.nodup_nil, fun l p => by simp [hqueue], fun r => ⟨fun l p => ?_, fun l => ?_, ?_, ?_⟩,
    fun r q hr => absurd (hfree r) hr⟩
  · simp [hqueue, hfree]
  · simp [Config.flying, hfree]
  · exact iff_of_false (by simp [hfree]) (not_or.2 ⟨(nomatch ·), (nomatch ·)⟩)
  · exact (nomatch ·)

theorem poolFits_of_linkMove {c d : Config} (h : LinkMove c d) (hc : c.PoolFits) : d.PoolFits := by
  cases h with
  | notice f =>
    exact hc.of_enqueue (src := .link) (fun _ => (nomatch ·)) (fun r => by simp [raiseLinkNotice_eq])
      (fun _ _ => by simp [raiseLinkNotice_eq]) (fun _ => rfl) (reports_raiseLinkNotice ..)
      (State.sendingSource_congr (by simp [raiseLinkNotice_eq]))
  | link f hf => exact hc.of_same (fun _ => rfl) (fun _ _ => by simp) (fun _ => rfl) rfl hf.source
  | beginReport src rest hq ht => exact poolFits_beginReport hq ht hc
  | finishReport => exact poolFits_finishReport hc
  | reset straps pin => exact poolFits_reset straps pin _

theorem poolFits_withPending {s : State} (q : List Instr) (h : s.config.PoolFits) :
    (s.withPending q).config.PoolFits :=
  h.of_same (fun _ => rfl) (fun l _ => by cases l <;> rfl)
    (fun l => by cases l <;> rfl) rfl rfl

/-- Settles O10: every move takes records from place to place with their states. -/
theorem transferPoolStaysConsistent : Obligations.TransferPoolStaysConsistent := by
  intro s t hs ht
  exact (poolOk_iff t).2
    (keeps_of_step poolFits_of_move poolFits_of_linkMove poolFits_withPending ht ((poolOk_iff s).1 hs))

end Sys2Proof.Machine

/-! The receive store under every move: each slot in the place of its state (Table 5-2, R89). -/

namespace Sys2Proof.Machine

/-- The slot reserved for the exchange that waits for its outcome, line by line. -/
def Config.reserved (c : Config) (l : Line) : Option SlotIndex := (c.untold l).bind Carried.slot

/-- A slot stands in the place of its state: reserved for a POLL, waiting for its report, or in it. -/
structure Config.Stores (c : Config) (k : SlotIndex) : Prop where
  reserved : ∀ l, c.reserved l = some k ↔
    (c.state.slot k).state = .reserved ∧ (c.state.slot k).line = l
  filled : (c.state.slot k).state = .filled ↔ .data k ∈ c.state.reports
  sending : (c.state.slot k).state = .sending ↔ c.state.sendingSource = some (.data k)

/-- `SlotsOk`, slot by slot. -/
structure Config.SlotsFit (c : Config) : Prop where
  reports : c.state.reports.Nodup
  stores : ∀ k, c.Stores k

theorem State.reserved_config (s : State) (l : Line) : s.config.reserved l = (s.line l).reserved := by
  simp only [Config.reserved, State.config, State.untold, LineBlock.untold, LineBlock.reserved,
    Option.bind_map]
  rfl

theorem slotsOk_iff (s : State) : SlotsOk s ↔ s.config.SlotsFit := by
  constructor
  · rintro ⟨hd, hA, hB, hreserved, hfilled, hsending⟩
    have hline (l : Line) (k : SlotIndex) (h : (s.line l).reserved = some k) :
        (s.slot k).state = .reserved ∧ (s.slot k).line = l := by
      cases l
      · exact hA k h
      · exact hB k h
    refine ⟨hd, fun k => ⟨fun l => ?_, hfilled k, hsending k⟩⟩
    rw [State.reserved_config]
    refine ⟨hline l k, ?_⟩
    rintro ⟨hstate, rfl⟩
    exact hreserved k hstate
  · rintro ⟨hd, h⟩
    have hline (l : Line) (k : SlotIndex) : (s.line l).reserved = some k ↔
        (s.slot k).state = .reserved ∧ (s.slot k).line = l := by
      rw [← State.reserved_config]
      exact (h k).reserved l
    exact ⟨hd, fun k => (hline .A k).1, fun k => (hline .B k).1, fun k hk => (hline _ k).2 ⟨hk, rfl⟩,
      fun k => (h k).filled, fun k => (h k).sending⟩

/-! ### Changes of the store -/

/-- A slot and its place are as they were. -/
theorem Config.Stores.congr {c d : Config} {k : SlotIndex} (h : c.Stores k)
    (hx : d.state.slot k = c.state.slot k)
    (hf : ∀ l, d.reserved l = some k ↔ c.reserved l = some k)
    (hr : .data k ∈ d.state.reports ↔ .data k ∈ c.state.reports)
    (ht : d.state.sendingSource = some (.data k) ↔ c.state.sendingSource = some (.data k)) :
    d.Stores k where
  reserved l := by rw [hf, hx]; exact h.reserved l
  filled := by rw [hr, hx]; exact h.filled
  sending := by rw [ht, hx]; exact h.sending

/-- No slot changes and no exchange with one, and no DATA report comes or goes. -/
theorem Config.SlotsFit.congr {c d : Config} (h : c.SlotsFit)
    (hx : ∀ k, d.state.slot k = c.state.slot k) (hf : ∀ l, d.reserved l = c.reserved l)
    (hd : d.state.reports.Nodup) (hr : ∀ k, .data k ∈ d.state.reports ↔ .data k ∈ c.state.reports)
    (ht : d.state.sendingSource = c.state.sendingSource) : d.SlotsFit where
  reports := hd
  stores k := (h.stores k).congr (hx k) (fun l => by rw [hf]) (hr k) (by rw [ht])

/-- Nothing that the store looks at changes. -/
theorem Config.SlotsFit.of_same {c d : Config} (h : c.SlotsFit)
    (hx : ∀ k, d.state.slot k = c.state.slot k) (hf : ∀ l, d.reserved l = c.reserved l)
    (hr : d.state.reports = c.state.reports)
    (ht : d.state.sendingSource = c.state.sendingSource) : d.SlotsFit :=
  h.congr hx hf (hr ▸ h.reports) (fun k => by rw [hr]) ht

/-- Sources of no DATA report enter the queue. -/
theorem Config.SlotsFit.of_enqueue {c d : Config} {xs : List Source} (h : c.SlotsFit)
    (hs : ∀ k, .data k ∉ xs) (hx : ∀ k, d.state.slot k = c.state.slot k)
    (hf : ∀ l, d.reserved l = c.reserved l)
    (hr : d.state.reports = enqueueAll xs c.state.reports)
    (ht : d.state.sendingSource = c.state.sendingSource) : d.SlotsFit :=
  h.congr hx hf (hr ▸ enqueueAll_nodup _ _ h.reports)
    (fun k => by simp [hr, mem_enqueueAll, hs k]) ht

theorem Config.reserved_update (s : State) (u : Line → Option Carried) (l : Line) (c : Option Carried)
    (m : Line) : Config.reserved ⟨s, Function.update u l c⟩ m =
      if m = l then c.bind Carried.slot else (u m).bind Carried.slot := by
  unfold Config.reserved
  dsimp only
  rw [Function.update_apply]
  split <;> rfl

/-- An exchange comes or goes that carries no slot. -/
theorem Config.reserved_update_same {s t : State} {u : Line → Option Carried} {l : Line}
    {c : Option Carried} (h : c.bind Carried.slot = (u l).bind Carried.slot) (m : Line) :
    Config.reserved ⟨t, Function.update u l c⟩ m = Config.reserved ⟨s, u⟩ m := by
  rw [Config.reserved_update, Config.reserved]
  split
  · rename_i hm; rw [hm, h]
  · rfl

theorem State.slot_updLine (s : State) (l : Line) (f : LineBlock → LineBlock) (k : SlotIndex) :
    (s.updLine l f).slot k = s.slot k := by rw [State.updLine_eq, State.slot_setLine]

theorem slot_completeQueued (l : Line) (p : TransferRecord → Bool) (result : TransferResult)
    (s : State) (k : SlotIndex) : (completeQueued l p result s).1.slot k = s.slot k := by
  obtain ⟨-, -, -, -, -, hslots, -⟩ := completeQueued_spec l p result s
  simp only [State.slot, hslots]

theorem slot_tellRecord (r : RecordIndex) (o : ExchangeOutcome) (gone lost stopping : Bool)
    (s : State) (k : SlotIndex) : (tellRecord r o gone lost stopping s).slot k = s.slot k := by
  rw [tellRecord_eq]
  split
  · simp
  · simp [queueTail, State.slot_updLine]
  · simp [queueHead, State.slot_updLine]

/-- A transfer's outcome enqueues its COMPLETION or nothing. -/
theorem reports_tellRecord (r : RecordIndex) (o : ExchangeOutcome) (gone lost stopping : Bool)
    (s : State) : ∃ xs, (tellRecord r o gone lost stopping s).reports = enqueueAll xs s.reports ∧
      ∀ k, .data k ∉ xs := by
  rw [tellRecord_eq]
  split
  · exact ⟨[.completion r], rfl, fun k => by simp⟩
  · exact ⟨[], by simp, fun k => by simp⟩
  · exact ⟨[], by simp, fun k => by simp⟩

section
variable {s : State} {u : Line → Option Carried} (h : Config.SlotsFit ⟨s, u⟩)
include h

/-- A FREE slot is reserved for the exchange of an engine that had none. -/
theorem slotsFit_reserve {l : Line} {k : SlotIndex} (t : Handle) (hu : u l = none)
    (hk : (s.slot k).state = .free) :
    Config.SlotsFit ⟨reserveSlot k l t s, Function.update u l (some (.poll t (some k)))⟩ := by
  have hsame (m : Line) :
      Config.reserved ⟨reserveSlot k l t s, Function.update u l (some (.poll t (some k)))⟩ m =
        if m = l then some k else Config.reserved ⟨s, u⟩ m := Config.reserved_update ..
  have hnone : Config.reserved ⟨s, u⟩ l = none := by simp [Config.reserved, hu]
  refine ⟨h.reports, fun j => ?_⟩
  by_cases hj : j = k
  · subst hj
    have hreserved (m : Line) : Config.reserved ⟨s, u⟩ m ≠ some j := fun hm =>
      absurd (hk.symm.trans (((h.stores j).reserved m).1 hm).1) (by decide)
    refine ⟨fun m => ?_, ?_, ?_⟩
    · rw [hsame]
      split
      · rename_i hm; simp [reserveSlot, hm]
      · rename_i hm; simp [reserveSlot, hreserved, Ne.symm hm]
    · simpa [reserveSlot, hk] using (h.stores j).filled
    · have hsend : s.sendingSource ≠ some (.data j) := fun ht =>
        absurd (hk.symm.trans ((h.stores j).sending.2 ht)) (by decide)
      exact iff_of_false (by simp [reserveSlot]) hsend
  · refine (h.stores j).congr (by simp [reserveSlot, State.slot_setSlot, hj]) (fun m => ?_) Iff.rfl Iff.rfl
    rw [hsame]
    split
    · rename_i hm; simp [hm, hnone, Ne.symm hj]
    · rfl

/-- The reservation of an exchange is over. -/
theorem slotsFit_release {l : Line} {k : SlotIndex} {t : Handle} {x : ReceiveSlot} {q : List Source}
    (hu : u l = some (.poll t (some k))) (hq : q.Nodup)
    (hx : x.state = .free ∧ q = s.reports ∨
      x.state = .filled ∧ q = enqueueAll [.data k] s.reports) :
    Config.SlotsFit ⟨(s.setSlot k x).withReports q, Function.update u l none⟩ := by
  have hfly : Config.reserved ⟨s, u⟩ l = some k := by simp [Config.reserved, hu, Carried.slot]
  obtain ⟨hstate, hline⟩ := ((h.stores k).reserved l).1 hfly
  have hreport : .data k ∉ s.reports := fun hr =>
    absurd (hstate.symm.trans ((h.stores k).filled.2 hr)) (by decide)
  have hsending : s.sendingSource ≠ some (.data k) := fun ht =>
    absurd (hstate.symm.trans ((h.stores k).sending.2 ht)) (by decide)
  have hsame (m : Line) : Config.reserved ⟨(s.setSlot k x).withReports q, Function.update u l none⟩ m =
      if m = l then none else Config.reserved ⟨s, u⟩ m := Config.reserved_update ..
  refine ⟨hq, fun j => ?_⟩
  by_cases hj : j = k
  · subst hj
    have hgone (m : Line) :
        Config.reserved ⟨(s.setSlot j x).withReports q, Function.update u l none⟩ m ≠ some j := by
      rw [hsame]
      split
      · exact (nomatch ·)
      · rename_i hm
        exact fun hm' => hm ((((h.stores j).reserved m).1 hm').2.symm.trans hline)
    have hkept : ((s.setSlot j x).withReports q).sendingSource = s.sendingSource := rfl
    obtain ⟨hx, rfl⟩ | ⟨hx, rfl⟩ := hx
    · exact ⟨fun m => iff_of_false (hgone m) (by simp [hx]), by simp [hx, hreport],
        by simp [hx, hkept, hsending]⟩
    · exact ⟨fun m => iff_of_false (hgone m) (by simp [hx]), by simp [hx, mem_enqueueAll],
        by simp [hx, hkept, hsending]⟩
  · have hmem : .data j ∈ q ↔ .data j ∈ s.reports := by
      obtain ⟨-, rfl⟩ | ⟨-, rfl⟩ := hx
      · rfl
      · simp [mem_enqueueAll, hj]
    refine (h.stores j).congr (by simp [State.slot_setSlot, hj]) (fun m => ?_) hmem Iff.rfl
    rw [hsame]
    split
    · rename_i hm; simp [hm, hfly, Ne.symm hj]
    · rfl

end

/-- Every move of a command within the part keeps the store. -/
theorem slotsFit_of_move {c d : Config} (h : Move c d) (hc : c.SlotsFit) : d.SlotsFit := by
  have hsending := sendingSource_of_move h
  cases h with
  | line l b _ => exact hc.of_same (fun _ => by simp) (fun _ => rfl) (by simp) hsending
  | node i e _ _ => exact hc.of_same (fun _ => rfl) (fun _ => rfl) rfl hsending
  | fill i e _ _ _ => exact hc.of_same (fun _ => rfl) (fun _ => rfl) rfl hsending
  | nodeNotice i =>
    exact hc.of_enqueue (fun _ => by simp) (fun _ => by simp [raiseNodeNotice_eq]) (fun _ => rfl)
      (reports_raiseNodeNotice ..) hsending
  | lineNotice l =>
    exact hc.of_enqueue (fun _ => by simp) (fun _ => by simp [raiseLineNotice_eq]) (fun _ => rfl)
      (reports_raiseLineNotice ..) hsending
  | runNotice l =>
    exact hc.of_enqueue (fun _ => by simp) (fun _ => by simp [raiseDiscoveryNotice_eq]) (fun _ => rfl)
      (reports_raiseDiscoveryNotice ..) hsending
  | completeQueued l p result =>
    obtain ⟨-, -, -, hreports, -⟩ := completeQueued_spec l p result ‹State›
    exact hc.of_enqueue (fun _ => by simp) (fun _ => slot_completeQueued ..) (fun _ => rfl) hreports
      hsending
  | completeFromQueue r result _ =>
    exact hc.of_enqueue (xs := [.completion r]) (fun _ => by simp)
      (fun _ => by simp [completeFromQueue, completeRecord_eq, State.slot_updLine]) (fun _ => rfl)
      (by simp [completeFromQueue, completeRecord_eq, State.reports_updLine]) hsending
  | submit r x _ _ _ =>
    exact hc.of_same (fun _ => by simp [queueTail, State.slot_updLine]) (fun _ => rfl) (by simp) hsending
  | pickRecord l r t hu _ =>
    exact hc.of_same (fun _ => by simp [State.slot_updLine])
      (Config.reserved_update_same (by simp [hu, Carried.slot]))
      (by simp [State.reports_updLine]) hsending
  | reserve l k t hu hk => exact slotsFit_reserve hc t hu hk
  | handOver l c hu _ hk =>
    exact hc.of_same (fun _ => rfl) (Config.reserved_update_same (by simp [hu, hk])) rfl hsending
  | told l c hu _ hk =>
    exact hc.of_same (fun _ => rfl) (Config.reserved_update_same (by simp [hu, hk])) rfl hsending
  | tellRecord l r t o gone lost stopping hu =>
    obtain ⟨xs, hreports, hxs⟩ := reports_tellRecord r o gone lost stopping ‹State›
    exact hc.of_enqueue hxs (fun _ => slot_tellRecord ..)
      (Config.reserved_update_same (by simp [hu, Carried.slot])) hreports hsending
  | freeSlot l t k hu => exact slotsFit_release hc hu hc.reports (.inl ⟨rfl, rfl⟩)
  | fillSlot l t k payload hu =>
    dsimp only
    rw [enqueue_withReports]
    exact slotsFit_release hc hu (enqueueAll_nodup _ _ hc.reports) (.inr ⟨rfl, rfl⟩)
  | credit n => exact hc.of_same (fun _ => rfl) (fun _ => rfl) rfl hsending
  | awaitReset => exact hc.of_same (fun _ => rfl) (fun _ => rfl) rfl hsending

/-! ### The moves of the host link -/

/-- The slot whose DATA report begins is SENDING (R98). -/
theorem slot_beginReport (src : Source) (rest : List Source) (s : State) (k : SlotIndex) :
    (beginReport src rest s).slot k =
      if src = .data k then { s.slot k with state := .sending } else s.slot k := by
  rw [beginReport, State.slot_updLink]
  cases src with
  | data j =>
    simp only [sourceBegins, State.slot_setSlot, Source.data.injEq]
    by_cases hj : k = j
    · subst hj; rw [if_pos rfl, if_pos rfl]; rfl
    · rw [if_neg hj, if_neg (Ne.symm hj)]; rfl
  | line l => exact State.slot_setLine ..
  | discovery l => exact State.slot_setLine ..
  | completion _ | node _ | link => rfl

theorem slotsFit_beginReport {s : State} {u : Line → Option Carried} {src : Source}
    {rest : List Source} (hq : s.reports = src :: rest) (ht : s.link.transmitter = none)
    (h : Config.SlotsFit ⟨s, u⟩) : Config.SlotsFit ⟨beginReport src rest s, u⟩ := by
  have hd : (src :: rest).Nodup := hq ▸ h.reports
  obtain ⟨hsrc, hrest⟩ := List.nodup_cons.1 hd
  have hnone : s.sendingSource = none := State.sendingSource_none ht
  refine ⟨by simpa [reports_beginReport] using hrest, fun k => ?_⟩
  by_cases hk : src = .data k
  · have hfilled : (s.slot k).state = .filled := (h.stores k).filled.2 (by simp [hq, hk])
    have hstate : ((beginReport src rest s).slot k).state = .sending := by
      rw [slot_beginReport, if_pos hk]
    refine ⟨fun l => iff_of_false (fun hl => ?_) (by simp [hstate]), ?_, ?_⟩
    · exact absurd (hfilled.symm.trans (((h.stores k).reserved l).1 hl).1) (by decide)
    · simpa [hstate, reports_beginReport] using hk ▸ hsrc
    · exact iff_of_true hstate (congrArg some hk)
  · refine (h.stores k).congr (by rw [slot_beginReport, if_neg hk]) (fun _ => Iff.rfl) ?_ ?_
    · simp [reports_beginReport, hq, Ne.symm hk]
    · simp [sendingSource_beginReport, hk, hnone]

/-- The end of a DATA report frees its slot; no other slot changes (R98). -/
theorem slot_finishReport (s : State) (k : SlotIndex) : (finishReport s).slot k =
    if s.sendingSource = some (.data k) then { s.slot k with state := .free } else s.slot k := by
  unfold finishReport
  split
  · rename_i src m ht
    have hsrc : s.sendingSource = some src := by simp [State.sendingSource, ht, Transmission.source]
    rw [hsrc]
    cases src with
    | data j =>
      simp only [freeSource, State.slot_setSlot, Option.some.injEq, Source.data.injEq]
      by_cases hj : k = j
      · subst hj; simp [idleTransmitter]
      · simp [hj, Ne.symm hj, idleTransmitter]
    | node _ | completion _ | line _ | discovery _ | link => simp [freeSource, idleTransmitter]
  · rename_i hne
    have hsrc : s.sendingSource ≠ some (.data k) := by
      intro hs
      simp only [State.sendingSource, Option.bind_eq_some_iff] at hs
      obtain ⟨x, hx, hxs⟩ := hs
      cases x with
      | report src m => exact hne src m hx
      | announce m | reply m => cases hxs
    rw [if_neg hsrc]

theorem slotsFit_finishReport {s : State} {u : Line → Option Carried}
    (h : Config.SlotsFit ⟨s, u⟩) : Config.SlotsFit ⟨finishReport s, u⟩ := by
  refine ⟨by rw [reports_finishReport]; exact h.reports, fun k => ?_⟩
  by_cases hk : s.sendingSource = some (.data k)
  · have hsend : (s.slot k).state = .sending := (h.stores k).sending.2 hk
    have hfree : ((finishReport s).slot k).state = .free := by rw [slot_finishReport, if_pos hk]
    refine ⟨fun l => iff_of_false (fun hl => ?_) (by simp [hfree]), ?_, ?_⟩
    · exact absurd (hsend.symm.trans (((h.stores k).reserved l).1 hl).1) (by decide)
    · refine iff_of_false (by simp [hfree]) fun hr => ?_
      rw [reports_finishReport] at hr
      exact absurd (hsend.symm.trans ((h.stores k).filled.2 hr)) (by decide)
    · simp [hfree, sendingSource_finishReport]
  · exact (h.stores k).congr (by rw [slot_finishReport, if_neg hk]) (fun _ => Iff.rfl)
      (by rw [reports_finishReport]) (iff_of_false (by simp [sendingSource_finishReport]) hk)

theorem slotsFit_reset (straps : BitVec 2) (pin : ResetPin) (s : State) :
    Config.SlotsFit ⟨blocksReset straps pin s, fun _ => none⟩ := by
  have hfree (k : SlotIndex) : (blocksReset straps pin s).slot k = .reset := by
    simp [State.slot, blocksReset, State.blocksReset, Vector.get]
  refine ⟨List.nodup_nil, fun k => ⟨fun l => ?_, ?_, ?_⟩⟩
  · exact iff_of_false (nomatch ·) (by simp [hfree, ReceiveSlot.reset])
  · exact iff_of_false (by simp [hfree, ReceiveSlot.reset]) (nomatch ·)
  · exact iff_of_false (by simp [hfree, ReceiveSlot.reset]) (nomatch ·)

theorem slotsFit_of_linkMove {c d : Config} (h : LinkMove c d) (hc : c.SlotsFit) : d.SlotsFit := by
  cases h with
  | notice f =>
    exact hc.of_enqueue (fun _ => by simp) (fun _ => by simp [raiseLinkNotice_eq]) (fun _ => rfl)
      (reports_raiseLinkNotice ..) (State.sendingSource_congr (by simp [raiseLinkNotice_eq]))
  | link f hf => exact hc.of_same (fun _ => rfl) (fun _ => rfl) rfl hf.source
  | beginReport src rest hq ht => exact slotsFit_beginReport hq ht hc
  | finishReport => exact slotsFit_finishReport hc
  | reset straps pin => exact slotsFit_reset straps pin _

/-- Settles O11: every move takes slots from place to place with their states. -/
theorem receiveStoreStaysConsistent : Obligations.ReceiveStoreStaysConsistent := by
  intro s t hs ht
  refine (slotsOk_iff t).2 (keeps_of_step slotsFit_of_move slotsFit_of_linkMove (fun q h => ?_) ht
    ((slotsOk_iff s).1 hs))
  exact h.of_same (fun _ => rfl) (fun l => by cases l <;> rfl) rfl rfl

end Sys2Proof.Machine

/-! A line's blocks, change by change: what each change of a line needs to leave the line legal (Tables
3-2, 4-4, 7-1 and 7-2). -/

namespace Sys2Proof.Machine

/-! ### Legal blocks -/

/-- `LineOk`, but for an exchange that has just ended within a step of discovery. -/
structure LineBlock.Near (b : LineBlock) : Prop where
  engine : b.guard.lineState.engineFits b.engine = true
  watch : b.guard.lineState.watchFits b.guard.watch = true
  reason : b.guard.reasonFits = true
  running : b.scheduler.running = true ↔ b.guard.lineState = .running
  floor : b.scheduler.floor = .stopped ↔ b.guard.lineState ≠ .running
  driver : b.pins.de = true → b.engine.isSending = true ∨ b.guard.watch.isWakeBreak = true
  wakeBreak : b.guard.watch.isWakeBreak = true → b.pins.de = true
  echo : b.engine.echoFits b.pins.de = true
  tx : b.pins.tx = b.txExpected
  hold : b.guard.holdTimer.isSome = true ↔ b.guard.lineState = .faulted
  stopAfterHold : b.guard.stopAfterHold = true → b.guard.lineState = .faulted
  stuckRun : b.guard.stuckRun.isSome = true → b.guard.lineState.watched = true ∧ b.pins.de = false
  step : b.scheduler.stepInProgress = true →
    b.discovery.active = true ∧ b.guard.lineState.watched = true
  active : b.discovery.active = true → b.guard.lineState = .running ∨
    b.guard.lineState = .stopping ∧ b.discovery.stopPending ≠ .none
  stopPending : b.discovery.stopPending ≠ .none → b.scheduler.stepInProgress = true
  contention : b.guard.contentionRun ≤ 3 ∧
    (b.guard.lineState = .starting ∨ b.guard.lineState.watched = true → b.guard.contentionRun < 3)
  walk : b.scheduler.walk ≤ 64
  interleave : b.scheduler.interleaveCount ≤ 8
  params : b.guard.params.inRange = true

/-- `LineOk`, field by field. -/
structure LineBlock.Legal (b : LineBlock) : Prop extends b.Near where
  busy : b.scheduler.stepInProgress = true → b.engine ≠ .idle

theorem lineOk_iff (b : LineBlock) : LineOk b ↔ b.Legal := by
  constructor
  · rintro ⟨h1, h2, h3, h4, h5, h6, h7, h8, h9, h10, h11, h12, h13, h14, h15, h16, h17, h18, h19⟩
    exact ⟨⟨h1, h2, h3, h4, h5, h6, h7, h8, h9, h10, h11, h12, fun h => (h13 h).2, h14, h15, h16, h17,
      h18, h19⟩, fun h => (h13 h).1⟩
  · rintro ⟨⟨h1, h2, h3, h4, h5, h6, h7, h8, h9, h10, h11, h12, h13, h14, h15, h16, h17, h18, h19⟩, h⟩
    exact ⟨h1, h2, h3, h4, h5, h6, h7, h8, h9, h10, h11, h12, fun hs => ⟨h hs, h13 hs⟩, h14, h15, h16,
      h17, h18, h19⟩

/-- What every change of a line keeps, also in the middle of an event. -/
structure LineBlock.Sane (b : LineBlock) : Prop where
  inactive : b.discovery.active = false → b.discovery.stopPending = .none
  contention : b.guard.contentionRun ≤ 3
  walk : b.scheduler.walk ≤ 64
  interleave : b.scheduler.interleaveCount ≤ 8
  params : b.guard.params.inRange = true

theorem LineBlock.Near.sane {b : LineBlock} (h : b.Near) : b.Sane where
  inactive hi := by
    by_contra hp
    exact absurd ((h.step (h.stopPending hp)).1.symm.trans hi) (by decide)
  contention := h.contention.1
  walk := h.walk
  interleave := h.interleave
  params := h.params

/-- What of a line's blocks `LineOk` looks at. -/
def LineBlock.outline (b : LineBlock) : LineBlock where
  guard := { b.guard with noticePending := false, counters := .zero, recoveryCount := 0 }
  scheduler := { b.scheduler with cycle := 0, turnTaken := false }
  engine := b.engine
  discovery := { Discovery.reset with
    active := b.discovery.active, stopPending := b.discovery.stopPending }
  receiver := .reset
  pins := { b.pins with rx := .recessive }
  urgent := []
  normal := []

theorem LineBlock.near_outline (b : LineBlock) : b.outline.Near ↔ b.Near :=
  ⟨fun h => { h with }, fun h => { h with }⟩

theorem LineBlock.legal_outline (b : LineBlock) : b.outline.Legal ↔ b.Legal :=
  ⟨fun h => { h with }, fun h => { h with }⟩

theorem LineBlock.sane_outline (b : LineBlock) : b.outline.Sane ↔ b.Sane :=
  ⟨fun h => { h with }, fun h => { h with }⟩

/-! ### What a legal line's state says of its other parts -/

section Near
variable {b : LineBlock} (h : b.Near)
include h

theorem LineBlock.Near.watched_of_unfixed {x : Exchange} (hx : b.engine.unfixed = some x) :
    b.guard.lineState.watched = true := by
  have := h.engine
  cases hs : b.guard.lineState <;> cases he : b.engine <;>
    simp_all [LineState.engineFits, LineState.watched, Engine.unfixed, Engine.isFixed]

theorem LineBlock.Near.reason_of_watched (hw : b.guard.lineState.watched = true) :
    b.guard.faultReason = .none := by
  have := h.reason
  cases hs : b.guard.lineState <;> simp_all [LineGuard.reasonFits, LineState.watched]

theorem LineBlock.Near.watch_of_watched (hw : b.guard.lineState.watched = true) :
    b.guard.watch = .stopped := by
  have := h.watch
  cases hs : b.guard.lineState <;> cases hc : b.guard.watch <;>
    simp_all [LineState.watchFits, LineState.watched]

end Near

theorem LineBlock.runOnRelease_isSome {b : LineBlock} (h : b.runOnRelease.isSome = true) :
    b.guard.lineState.watched = true := by
  unfold runOnRelease at h
  split at h
  · rename_i hw
    rcases hw.1 with hs | hs <;> rw [hs] <;> rfl
  · cases h

/-! ### An exchange begins, goes on and ends -/

/-- The scheduler's own counts stay in their range. -/
theorem LineBlock.Near.counts {b : LineBlock} (h : b.Near) {walk count : Nat} {turn : Bool}
    (hw : walk ≤ 64) (hc : count ≤ 8) :
    LineBlock.Near { b with scheduler := { b.scheduler with
      walk := walk, interleaveCount := count, turnTaken := turn } } :=
  { h with walk := hw, interleave := hc }

/-- An exchange is handed over on a RUNNING line. -/
theorem LineBlock.Near.sends {b : LineBlock} (h : b.Near) (hr : b.guard.lineState = .running)
    (x : Exchange) : (b.sends x).Legal :=
  { h with
    engine := by simp [LineBlock.sends, hr, LineState.engineFits]
    driver := fun _ => .inl rfl
    wakeBreak := fun _ => rfl
    echo := rfl
    tx := rfl
    stuckRun := (nomatch ·)
    busy := fun _ => (nomatch ·) }

/-- An engine moves on within its exchange, with no change of the driver. -/
theorem LineBlock.Legal.engineMoves {b : LineBlock} (h : b.Legal) {x y : Exchange} {e : Engine}
    (hx : b.engine.unfixed = some x) (he : e.unfixed = some y)
    (hs : e.isSending = b.engine.isSending) (hf : e.echoFits b.pins.de = true) :
    LineBlock.Legal { b with engine := e } := by
  have hw := h.watched_of_unfixed hx
  have hidle : e ≠ .idle := by rintro rfl; cases he
  refine { h with
    engine := ?_
    driver := fun hd => (h.driver hd).imp_left fun h' => hs.trans h'
    echo := hf
    tx := ?_
    busy := fun _ => hidle }
  · cases hls : b.guard.lineState <;> simp_all [LineState.engineFits, LineState.watched]
  · simpa [LineBlock.txExpected, hs] using h.tx

/-- The driver is released as the last echo alone is outstanding, or the window opens. -/
theorem LineBlock.Legal.released {b : LineBlock} (h : b.Legal) {x y : Exchange} {e : Engine}
    (hx : b.engine.unfixed = some x) (he : e.unfixed = some y) (hf : e.echoFits false = true)
    {run : Timer} (hrun : run.isSome = true → b.guard.lineState.watched = true) :
    LineBlock.Legal { b with
      engine := e
      pins := { b.pins with tx := .rest, de := false }
      guard := { b.guard with stuckRun := run } } := by
  have hw := h.watched_of_unfixed hx
  have hidle : e ≠ .idle := by rintro rfl; cases he
  refine { h with
    engine := ?_
    driver := (nomatch ·)
    wakeBreak := fun h' => ?_
    echo := hf
    tx := rfl
    stuckRun := fun h' => ⟨hrun h', rfl⟩
    busy := fun _ => hidle }
  · cases hls : b.guard.lineState <;> simp_all [LineState.engineFits, LineState.watched]
  · dsimp only at h'
    rw [h.watch_of_watched hw] at h'
    cases h'

/-- The wire side of an outcome that goes on to GUARD, with the contention run still below 3. -/
theorem LineBlock.Legal.left {b : LineBlock} (h : b.Legal) {x y : Exchange} {o : ExchangeOutcome}
    (hx : b.engine.unfixed = some y) (ho : o ≠ .aborted)
    (hc : contentionRunAfter o b.guard.contentionRun < 3) : (b.left x o).Legal := by
  have hw := h.watched_of_unfixed hx
  have hguard : (b.left x o).engine = .guard x o (charTimes b.guard.params b.guard.params.guardTime.toNat) := by
    cases o with
    | aborted => exact absurd rfl ho
    | reply _ | noReply | badReply | contention | sent | lineFault => rfl
  have hde : (b.left x o).pins.de = false := by
    simp only [LineBlock.left]
    split
    · rfl
    · rename_i hd; simpa using hd
  have hfits (e : Engine) (hi : e ≠ .idle) : b.guard.lineState.engineFits e = true := by
    cases hls : b.guard.lineState <;> simp_all [LineState.engineFits, LineState.watched]
  have htx : (b.left x o).pins.tx = .rest := by
    simp only [LineBlock.left]
    split
    · rfl
    · rename_i hd
      have := h.tx
      simpa [LineBlock.txExpected, hd] using this
  refine { h with
    engine := hguard ▸ hfits _ (nomatch ·)
    driver := fun hd => absurd (hde.symm.trans hd) (by decide)
    wakeBreak := fun h' => ?_
    echo := by rw [hguard]; rfl
    tx := by rw [htx, LineBlock.txExpected, hde]; rfl
    stuckRun := fun _ => ⟨hw, hde⟩
    contention := ⟨hc.le, fun _ => hc⟩
    busy := fun _ => by rw [hguard]; exact (nomatch ·) }
  have hwatch : (b.left x o).guard.watch = .stopped := h.watch_of_watched hw
  rw [hwatch] at h'
  cases h'

theorem LineBlock.Sane.left {b : LineBlock} (h : b.Sane) (x : Exchange) {o : ExchangeOutcome}
    (hc : contentionRunAfter o b.guard.contentionRun ≤ 3) : (b.left x o).Sane :=
  { h with contention := hc }

/-! ### Runs, faults and stops -/

/-- A line whose run has ended. -/
def LineBlock.afterRunBlock (b : LineBlock) (r : StopReason) : LineBlock :=
  { b with
    discovery := afterRun b.discovery r
    scheduler := if b.discovery.active = true then { b.scheduler with stepInProgress := false }
      else b.scheduler }

theorem afterRun_active (d : Discovery) (r : StopReason) : (afterRun d r).active = false := by
  unfold afterRun
  split
  · rfl
  · rename_i h; simpa using h

theorem LineBlock.Sane.afterRun_stopPending {b : LineBlock} (h : b.Sane) (r : StopReason) :
    (afterRun b.discovery r).stopPending = .none := by
  unfold afterRun
  split
  · rfl
  · rename_i hi; exact h.inactive (by simpa using hi)

/-- A run ends on a line that is legal but for an ended exchange. -/
theorem LineBlock.Near.afterRun {b : LineBlock} (h : b.Near) (r : StopReason) :
    (b.afterRunBlock r).Legal := by
  have hstep : (b.afterRunBlock r).scheduler.stepInProgress = false := by
    simp only [LineBlock.afterRunBlock]
    split
    · rfl
    · rename_i hi
      by_contra hs
      exact hi (h.step (by simpa using hs)).1
  have hrest : (b.afterRunBlock r).scheduler.running = b.scheduler.running ∧
      (b.afterRunBlock r).scheduler.floor = b.scheduler.floor ∧
      (b.afterRunBlock r).scheduler.walk = b.scheduler.walk ∧
      (b.afterRunBlock r).scheduler.interleaveCount = b.scheduler.interleaveCount := by
    simp only [LineBlock.afterRunBlock]
    split <;> exact ⟨rfl, rfl, rfl, rfl⟩
  obtain ⟨hrunning, hfloor, hwalk, hcount⟩ := hrest
  exact { h with
    running := by rw [hrunning]; exact h.running
    floor := by rw [hfloor]; exact h.floor
    step := fun h' => absurd (hstep.symm.trans h') (by decide)
    active := fun h' => absurd ((afterRun_active _ _).symm.trans h') (by decide)
    stopPending := fun h' => absurd (h.sane.afterRun_stopPending r) h'
    walk := by rw [hwalk]; exact h.walk
    interleave := by rw [hcount]; exact h.interleave
    busy := fun h' => absurd (hstep.symm.trans h') (by decide) }

/-- The line enters FAULTED with its engine in GUARD or IDLE, and its run ends. -/
theorem LineBlock.Sane.enterFault {b : LineBlock} (h : b.Sane) {why : FaultReason}
    (hw : why ≠ .none) (he : b.engine.unfixed = none) (r : StopReason) :
    ((b.enterFault why).afterRunBlock r).Legal := by
  have hsched : ((b.enterFault why).afterRunBlock r).scheduler = (b.enterFault why).scheduler := by
    simp only [LineBlock.afterRunBlock, LineBlock.enterFault]
    exact ite_self _
  exact {
    engine := by cases hb : b.engine <;>
      simp_all [LineBlock.afterRunBlock, LineBlock.enterFault, LineState.engineFits, Engine.isFixed,
        Engine.unfixed]
    watch := rfl
    reason := by simpa [LineBlock.afterRunBlock, LineBlock.enterFault, LineGuard.reasonFits] using hw
    running := by rw [hsched]; exact iff_of_false (nomatch ·) (nomatch ·)
    floor := by rw [hsched]; exact iff_of_true rfl (nomatch ·)
    driver := (nomatch ·)
    wakeBreak := (nomatch ·)
    echo := by
      show b.engine.echoFits false = true
      cases hb : b.engine <;> simp_all [Engine.echoFits, Engine.unfixed]
    tx := rfl
    hold := iff_of_true rfl rfl
    stopAfterHold := fun _ => rfl
    stuckRun := (nomatch ·)
    step := fun h' => by rw [hsched] at h'; cases h'
    active := fun h' => absurd ((afterRun_active _ _).symm.trans h') (by decide)
    stopPending := fun h' => absurd (h.afterRun_stopPending r) h'
    contention := ⟨h.contention, fun h' => h'.elim (nomatch ·) (nomatch ·)⟩
    walk := by rw [hsched]; exact h.walk
    interleave := by rw [hsched]; exact h.interleave
    params := h.params
    busy := fun h' => by rw [hsched] at h'; cases h' }

/-- What DOWN is, whichever way a line comes to it: everything stopped, the engine IDLE, no run. -/
structure LineBlock.Stopped (b : LineBlock) : Prop where
  engine : b.engine = .idle
  guard : b.guard.lineState = .down ∧ b.guard.stopAfterHold = false ∧ b.guard.faultReason = .none ∧
    b.guard.holdTimer = none ∧ b.guard.watch = .stopped ∧ b.guard.stuckRun = none
  pins : b.pins.tx = .rest ∧ b.pins.de = false
  scheduler : b.scheduler.running = false ∧ b.scheduler.floor = .stopped ∧
    b.scheduler.stepInProgress = false

theorem LineBlock.Stopped.goDown {b : LineBlock} (h : b.engine = .idle) : b.goDown.Stopped :=
  ⟨h, ⟨rfl, rfl, rfl, rfl, rfl, rfl⟩, ⟨rfl, rfl⟩, ⟨rfl, rfl, rfl⟩⟩

theorem LineBlock.Stopped.resetDown {b : LineBlock} (h : b.engine = .idle) : b.resetDown.Stopped :=
  ⟨h, ⟨rfl, rfl, rfl, rfl, rfl, rfl⟩, ⟨rfl, rfl⟩, ⟨rfl, rfl, rfl⟩⟩

theorem LineBlock.Sane.goDown {b : LineBlock} (h : b.Sane) : b.goDown.Sane := { h with }

theorem LineBlock.Sane.resetDown {b : LineBlock} (h : b.Sane) : b.resetDown.Sane :=
  { h with walk := Nat.zero_le _, interleave := Nat.zero_le _ }

/-- A stopped line whose run has ended is legal. -/
theorem LineBlock.Stopped.afterRun {b : LineBlock} (h : b.Stopped) (hs : b.Sane) (r : StopReason) :
    (b.afterRunBlock r).Legal := by
  obtain ⟨hengine, ⟨hstate, hafter, hreason, hhold, hwatch, hstuck⟩, ⟨htx, hde⟩, hrunning, hfloor,
    hstep⟩ := h
  have hsched : (b.afterRunBlock r).scheduler = b.scheduler := by
    simp only [LineBlock.afterRunBlock]
    split
    · rw [← hstep]
    · rfl
  exact {
    engine := by simp [LineBlock.afterRunBlock, hengine, hstate, LineState.engineFits]
    watch := by simp [LineBlock.afterRunBlock, hwatch, hstate, LineState.watchFits]
    reason := by simp [LineBlock.afterRunBlock, hreason, hstate, LineGuard.reasonFits]
    running := by rw [hsched]; simp [LineBlock.afterRunBlock, hrunning, hstate]
    floor := by rw [hsched]; simp [LineBlock.afterRunBlock, hfloor, hstate]
    driver := fun h' => absurd (hde.symm.trans h') (by decide)
    wakeBreak := fun h' => absurd (hwatch ▸ h' : Watch.isWakeBreak .stopped = true) (by decide)
    echo := by simp [LineBlock.afterRunBlock, hengine, Engine.echoFits]
    tx := by simp [LineBlock.afterRunBlock, LineBlock.txExpected, htx, hde]
    hold := by simp [LineBlock.afterRunBlock, hhold, hstate]
    stopAfterHold := fun h' => absurd (hafter.symm.trans h') (by decide)
    stuckRun := fun h' => absurd (hstuck ▸ h' : Option.isSome (none : Timer) = true) (by decide)
    step := fun h' => absurd (hstep.symm.trans (hsched ▸ h')) (by decide)
    active := fun h' => absurd ((afterRun_active _ _).symm.trans h') (by decide)
    stopPending := fun h' => absurd (hs.afterRun_stopPending r) h'
    contention := ⟨hs.contention, fun h' => by
      simp [LineBlock.afterRunBlock, hstate, LineState.watched] at h'⟩
    walk := by rw [hsched]; exact hs.walk
    interleave := by rw [hsched]; exact hs.interleave
    params := hs.params
    busy := fun h' => absurd (hstep.symm.trans (hsched ▸ h')) (by decide) }

end Sys2Proof.Machine

/-! Legal lines through the operations: which operations leave a line as it was for `LineOk`, and how an
outcome, a run's end and a change of one line carry legal lines on. -/

namespace Sys2Proof.Machine

/-! ### Lines that agree on what matters -/

/-- Both queues of a line are empty. -/
def LineBlock.Empty (b : LineBlock) : Prop := b.urgent = [] ∧ b.normal = []

/-- A line is as it was for `LineOk`, and its queues have not begun to fill. -/
structure LineBlock.Like (new old : LineBlock) : Prop where
  outline : new.outline = old.outline
  empty : old.Empty → new.Empty

theorem LineBlock.Like.rfl {b : LineBlock} : b.Like b := ⟨.refl _, id⟩

theorem LineBlock.Like.of_eq {b b' : LineBlock} (h : b = b') : b.Like b' := h ▸ .rfl

theorem LineBlock.Like.trans {a b c : LineBlock} (h : a.Like b) (h' : b.Like c) : a.Like c :=
  ⟨h.outline.trans h'.outline, fun he => h.empty (h'.empty he)⟩

section
variable {new old : LineBlock} (h : new.outline = old.outline)
include h

theorem LineBlock.lineState_of_outline : new.guard.lineState = old.guard.lineState :=
  congrArg (fun b => b.guard.lineState) h

theorem LineBlock.engine_of_outline : new.engine = old.engine :=
  congrArg (fun b => b.engine) h

theorem LineBlock.contentionRun_of_outline : new.guard.contentionRun = old.guard.contentionRun :=
  congrArg (fun b => b.guard.contentionRun) h

theorem LineBlock.Near.of_outline (ho : old.Near) : new.Near :=
  new.near_outline.1 (h ▸ old.near_outline.2 ho)

theorem LineBlock.Legal.of_outline (ho : old.Legal) : new.Legal :=
  new.legal_outline.1 (h ▸ old.legal_outline.2 ho)

theorem LineBlock.Sane.of_outline (ho : old.Sane) : new.Sane :=
  new.sane_outline.1 (h ▸ old.sane_outline.2 ho)

end

/-- A legal line that, where `q` is asked for, keeps its queues empty in DOWN and STOPPING. -/
structure LineBlock.Good (q : Prop) (b : LineBlock) : Prop where
  legal : b.Legal
  empty : q → b.guard.lineState = .down ∨ b.guard.lineState = .stopping → b.Empty

/-- A line that is neither DOWN nor STOPPING may hold records. -/
theorem LineBlock.Good.of_legal {q : Prop} {b : LineBlock} (h : b.Legal)
    (hd : b.guard.lineState ≠ .down) (hs : b.guard.lineState ≠ .stopping) : b.Good q :=
  ⟨h, fun _ h' => (h'.elim hd hs).elim⟩

theorem LineBlock.Good.like {q : Prop} {new old : LineBlock} (h : new.Like old) (ho : old.Good q) :
    new.Good q :=
  ⟨ho.legal.of_outline h.outline, fun hq hs =>
    h.empty (ho.empty hq (LineBlock.lineState_of_outline h.outline ▸ hs))⟩

/-- Every line is good. -/
def State.Good (q : Prop) (s : State) : Prop := ∀ m, (s.line m).Good q

/-- One line has a property, and the other is good. -/
def State.At (q : Prop) (s : State) (l : Line) (P : LineBlock → Prop) : Prop :=
  P (s.line l) ∧ ∀ m, m ≠ l → (s.line m).Good q

/-- Every line is as it was for `LineOk`. -/
structure Alike (s t : State) : Prop where
  like : ∀ m, (t.line m).Like (s.line m)

section
variable {q : Prop} {s t : State} {l : Line} {P Q : LineBlock → Prop}

theorem State.Good.at (h : s.Good q) (l : Line) : s.At q l (LineBlock.Good q) :=
  ⟨h l, fun m _ => h m⟩

theorem State.At.good (h : s.At q l (LineBlock.Good q)) : s.Good q := fun m => by
  by_cases hm : m = l
  · exact hm ▸ h.1
  · exact h.2 m hm

theorem State.At.mono (h : s.At q l P) (hPQ : P (s.line l) → Q (s.line l)) : s.At q l Q :=
  ⟨hPQ h.1, h.2⟩

theorem State.At.setLine (h : s.At q l P) {b : LineBlock} (hb : Q b) : (s.setLine l b).At q l Q :=
  ⟨by rwa [State.line_setLine_self], fun m hm => by
    rw [State.line_setLine, if_neg hm]
    exact h.2 m hm⟩

theorem State.At.updLine {f : LineBlock → LineBlock} (h : s.At q l P)
    (hf : P (s.line l) → Q (f (s.line l))) : (s.updLine l f).At q l Q := h.setLine (hf h.1)

theorem State.At.alike (h : s.At q l P) (ha : Alike s t)
    (hP : ∀ {b b'}, LineBlock.Like b' b → P b → P b') : t.At q l P :=
  ⟨hP (ha.like l) h.1, fun m hm => (h.2 m hm).like (ha.like m)⟩

theorem State.Good.alike (h : s.Good q) (ha : Alike s t) : t.Good q := fun m => (h m).like (ha.like m)

end

/-! ### Operations that leave every line alike -/

theorem Alike.refl (s : State) : Alike s s := ⟨fun _ => .rfl⟩

theorem Alike.trans {s t v : State} (h : Alike s t) (h' : Alike t v) : Alike s v :=
  ⟨fun m => (h'.like m).trans (h.like m)⟩

theorem Alike.of_line {s t : State} (h : ∀ m, t.line m = s.line m) : Alike s t :=
  ⟨fun m => .of_eq (h m)⟩

theorem alike_setLine {s : State} {l : Line} {b : LineBlock} (h : b.Like (s.line l)) :
    Alike s (s.setLine l b) := by
  refine ⟨fun m => ?_⟩
  rw [State.line_setLine]
  split
  · rename_i hm; exact hm ▸ h
  · exact .rfl

theorem alike_updLine {s : State} {l : Line} {f : LineBlock → LineBlock}
    (h : (f (s.line l)).Like (s.line l)) : Alike s (s.updLine l f) := alike_setLine h

theorem alike_setNode (s : State) (i : EntryIndex) (e : NodeEntry) : Alike s (s.setNode i e) :=
  .of_line (by simp)

theorem alike_setRecord (s : State) (r : RecordIndex) (x : TransferRecord) :
    Alike s (s.setRecord r x) := .of_line (by simp)

theorem alike_setSlot (s : State) (k : SlotIndex) (x : ReceiveSlot) : Alike s (s.setSlot k x) :=
  .of_line (by simp)

theorem alike_updLink (s : State) (f : HostLink → HostLink) : Alike s (s.updLink f) :=
  .of_line (by simp)

theorem alike_enqueue (src : Source) (s : State) : Alike s (enqueue src s) :=
  .of_line (by simp [enqueue_withReports])

theorem alike_updCounters (s : State) (l : Line) (f : LineCounters → LineCounters) :
    Alike s (s.updCounters l f) := alike_setLine ⟨rfl, id⟩

/-- A discovery record changes, but for its run and its stop. -/
theorem alike_updDiscovery {s : State} {l : Line} {f : Discovery → Discovery}
    (ha : (f (s.line l).discovery).active = (s.line l).discovery.active)
    (hp : (f (s.line l).discovery).stopPending = (s.line l).discovery.stopPending) :
    Alike s (s.updDiscovery l f) :=
  alike_setLine ⟨by simp only [LineBlock.outline, ha, hp], id⟩

theorem alike_raiseNodeNotice (i : EntryIndex) (s : State) : Alike s (raiseNodeNotice i s) :=
  (alike_setNode ..).trans (alike_enqueue ..)

theorem alike_raiseLineNotice (l : Line) (s : State) : Alike s (raiseLineNotice l s) := by
  refine Alike.trans ?_ (alike_enqueue ..)
  exact alike_updLine ⟨rfl, id⟩

theorem alike_raiseLinkNotice (f : LinkNotice → LinkNotice) (s : State) :
    Alike s (raiseLinkNotice f s) := (alike_updLink ..).trans (alike_enqueue ..)

/-- Every line but `l` is as it was. -/
theorem Alike.of_other {s t : State} {l : Line} (hl : (t.line l).Like (s.line l))
    (ho : t.line (otherLine l) = s.line (otherLine l)) : Alike s t := by
  refine ⟨fun m => ?_⟩
  by_cases hm : m = l
  · exact hm ▸ hl
  · have hm : m = otherLine l := by cases l <;> cases m <;> simp_all [otherLine]
    exact .of_eq (hm ▸ ho)

theorem alike_completeQueued (l : Line) (p : TransferRecord → Bool) (result : TransferResult)
    (s : State) : Alike s (completeQueued l p result s).1 := by
  obtain ⟨-, -, hl, -, -, -, ho, -⟩ := completeQueued_spec l p result s
  refine .of_other (l := l) ?_ ho
  rw [hl]
  exact ⟨rfl, fun ⟨hu, hn⟩ => ⟨by simp [hu], by simp [hn]⟩⟩

/-- With every record chosen, the queues are empty after it. -/
theorem empty_abortQueued (l : Line) (s : State) : ((abortQueued l s).1.line l).Empty := by
  obtain ⟨-, -, hl, -⟩ := completeQueued_spec l (fun _ => true) .aborted s
  rw [abortQueued, hl]
  exact ⟨by simp, by simp⟩

theorem alike_completeFromQueue (r : RecordIndex) (result : TransferResult) (s : State) :
    Alike s (completeFromQueue r result s) := by
  have herase : Alike s (s.updLine (s.record r).line fun b =>
      { b with urgent := b.urgent.erase r, normal := b.normal.erase r }) :=
    alike_updLine ⟨rfl, fun ⟨hu, hn⟩ => ⟨by simp [hu], by simp [hn]⟩⟩
  exact herase.trans ((alike_setRecord ..).trans (alike_enqueue ..))

theorem alike_completeRemoval (i : EntryIndex) (s : State) : Alike s (completeRemoval i s) := by
  unfold completeRemoval
  dsimp only
  split
  · exact (alike_setNode ..).trans (alike_raiseNodeNotice ..)
  · exact .refl s

theorem alike_finishTarget (c : Carried) (s : State) : Alike s (finishTarget c s) := by
  unfold finishTarget
  split
  · exact alike_completeRemoval _ s
  · exact .refl s

theorem alike_releaseClaim (l : Line) (s : State) : Alike s (releaseClaim l s) := by
  obtain ⟨-, hline, -⟩ := releaseClaim_spec l s
  exact .of_line hline

theorem alike_tellNode (i : EntryIndex) (f : MasterFrame) (o : ExchangeOutcome) (l : Line)
    (s : State) : Alike s (tellNode i f o l s).1 := .of_line (by simp [tellNode_eq])

theorem alike_loseTransfers (l : Line) (i : EntryIndex) (lost : Bool) (s : State) :
    Alike s (loseTransfers l i lost s) := by
  cases lost with
  | false => exact .refl s
  | true => exact alike_completeQueued ..

theorem alike_freeSlot (slot : Option SlotIndex) (s : State) : Alike s (freeSlot slot s) := by
  cases slot with
  | none => exact .refl s
  | some k => exact alike_setSlot ..

theorem alike_tellStore (l : Line) (i : EntryIndex) (slot : Option SlotIndex) (f : MasterFrame)
    (o : ExchangeOutcome) (before : NodeEntry) (s : State) :
    Alike s (tellStore l i slot f o before s) := by
  have hfree := alike_freeSlot slot s
  unfold tellStore
  split
  · exact hfree
  · split
    · split
      · exact hfree.trans (alike_setNode ..)
      · split
        · exact hfree.trans (alike_updCounters ..)
        · split
          · exact ((alike_setSlot ..).trans (alike_setNode ..)).trans (alike_enqueue ..)
          · exact alike_setNode ..
    · exact hfree

theorem Discovery.collision_run (d : Discovery) :
    d.collision.active = d.active ∧ d.collision.stopPending = d.stopPending := by
  unfold collision
  split
  · exact ⟨rfl, rfl⟩
  · split <;> exact ⟨rfl, rfl⟩

theorem Discovery.inviteOutcome_run (d : Discovery) (o : ExchangeOutcome) :
    (d.inviteOutcome o).active = d.active ∧ (d.inviteOutcome o).stopPending = d.stopPending := by
  unfold inviteOutcome
  split
  · exact ⟨rfl, rfl⟩
  · exact d.collision_run
  · split
    · exact ⟨rfl, rfl⟩
    · split
      · exact ⟨rfl, rfl⟩
      · exact d.collision_run
  · exact ⟨rfl, rfl⟩

theorem Discovery.roundFailed_run (d : Discovery) :
    d.roundFailed.active = d.active ∧ d.roundFailed.stopPending = d.stopPending := by
  unfold roundFailed
  split
  · exact ⟨rfl, rfl⟩
  · split <;> exact ⟨rfl, rfl⟩

theorem alike_tellInvite (l : Line) (o : ExchangeOutcome) (s : State) :
    Alike s (tellInvite l o s) := by
  unfold tellInvite
  split
  · obtain ⟨ha, hp⟩ := (s.line l).discovery.inviteOutcome_run o
    exact alike_updDiscovery ha hp
  · exact .refl s

theorem alike_bindAssignment (l : Line) (a : Assignment) (s : State) :
    Alike s (bindAssignment l a s) := by
  have hbind (e : NodeEntry) : Alike s (raiseNodeNotice a.entry (s.setNode a.entry e)) :=
    (alike_setNode ..).trans (alike_raiseNodeNotice ..)
  unfold bindAssignment
  dsimp only
  split
  · split
    · exact (hbind _).trans (alike_updDiscovery rfl rfl)
    · exact .refl s
  · split
    · exact (hbind _).trans (alike_updDiscovery rfl rfl)
    · exact .refl s

theorem alike_failAssignment (l : Line) (a : Assignment) (s : State) :
    Alike s (failAssignment l a s) := by
  unfold failAssignment
  split
  · exact .refl s
  · split
    · exact .refl s
    · obtain ⟨ha, hp⟩ := ((releaseClaim l s).line l).discovery.roundFailed_run
      exact (alike_releaseClaim l s).trans (alike_updDiscovery ha hp)

theorem alike_tellAssign (l : Line) (o : ExchangeOutcome) (s : State) :
    Alike s (tellAssign l o s) := by
  unfold tellAssign
  dsimp only
  split
  · split
    · cases o with
      | reply c => exact alike_bindAssignment ..
      | noReply | badReply | contention => exact alike_failAssignment ..
      | lineFault | aborted | sent => exact .refl s
    · exact .refl s
  · exact .refl s

theorem alike_pollTransmitted (c : Carried) (s : State) : Alike s (pollTransmitted c s) := by
  unfold pollTransmitted
  split
  · exact alike_setNode ..
  · exact .refl s

theorem alike_sourceBegins (src : Source) (s : State) : Alike s (sourceBegins src s) := by
  cases src with
  | line l =>
    unfold sourceBegins State.updGuard
    exact alike_updLine ⟨rfl, id⟩
  | discovery l =>
    unfold sourceBegins State.updDiscovery
    exact alike_updLine ⟨rfl, id⟩
  | completion _ => exact .refl s
  | node i => exact alike_setNode ..
  | data k => exact alike_setSlot ..
  | link =>
    unfold sourceBegins
    exact alike_updLink ..

theorem alike_beginReport (src : Source) (rest : List Source) (s : State) :
    Alike s (beginReport src rest s) := by
  have hqueue : Alike s { s with reports := rest } := .of_line (s.line_withReports rest)
  unfold beginReport
  exact (hqueue.trans (alike_sourceBegins src _)).trans (alike_updLink ..)

theorem alike_arbitrate (s : State) : Alike s (arbitrate s) := by
  unfold arbitrate
  split
  · exact .refl s
  · split
    · exact alike_updLink ..
    · split
      · exact alike_updLink ..
      · split
        · split
          · exact .refl s
          · exact alike_beginReport ..
        · exact .refl s

/-! ### Transfers that go back to their queue -/

/-- A record's outcome leaves every line's outline; while its line is STOPPING no queue begins to fill,
and no other line's queue ever does (R43). -/
theorem like_tellRecord {l : Line} {r : RecordIndex} (o : ExchangeOutcome) (gone lost stopping : Bool)
    (s : State) (m : Line) :
    ((tellRecord r o gone lost stopping s).line m).outline = (s.line m).outline ∧
      ((s.record r).line = l → (m = l → stopping = true) → (s.line m).Empty →
        ((tellRecord r o gone lost stopping s).line m).Empty) := by
  have hput {put : LineBlock → LineBlock} (ho : ∀ b, (put b).outline = b.outline) (x : TransferRecord)
      (n : Line) : (((s.setRecord r x).updLine n put).line m).outline = (s.line m).outline := by
    rw [State.updLine_eq, State.line_setLine, State.line_setRecord]
    split
    · rename_i hm; rw [hm, ho]
    · rfl
  have hkeep {put : LineBlock → LineBlock} (x : TransferRecord) (n : Line) (hm : m ≠ n)
      (he : (s.line m).Empty) : (((s.setRecord r x).updLine n put).line m).Empty := by
    rwa [State.updLine_eq, State.line_setLine, if_neg hm, State.line_setRecord]
  rw [tellRecord_eq]
  have hend : (((s.record r).attempted o).dispose o).override gone lost true ≠ .toTail ∧
      (((s.record r).attempted o).dispose o).override gone lost true ≠ .toHead := by
    unfold Disposition.override
    cases gone <;> cases lost <;> cases ((s.record r).attempted o).dispose o <;>
      exact ⟨(nomatch ·), (nomatch ·)⟩
  split
  · simp
  · rename_i hd
    refine ⟨hput (fun b => by split <;> rfl) _ _, fun hline hs he => ?_⟩
    by_cases hm : m = l
    · rw [hs hm] at hd
      exact absurd hd hend.1
    · refine hkeep _ _ ?_ he
      simpa [TransferRecord.attempted, hline] using hm
  · rename_i hd
    refine ⟨hput (fun b => by split <;> rfl) _ _, fun hline hs he => ?_⟩
    by_cases hm : m = l
    · rw [hs hm] at hd
      exact absurd hd hend.2
    · refine hkeep _ _ ?_ he
      simpa [TransferRecord.attempted, hline] using hm

/-- The owners of an exchange are told its outcome: every line's outline stays, and no queue begins to
fill but that of the exchange's line, unless it is STOPPING. -/
theorem like_tellOwners {l : Line} {x : Exchange} (o : ExchangeOutcome) (stopping : Bool) (s : State)
    (m : Line) :
    ((tellOwners l x o stopping s).line m).outline = (s.line m).outline ∧
      ((∀ r t, x.carried = .transfer r t → (s.record r).line = l) → (m = l → stopping = true) →
        (s.line m).Empty → ((tellOwners l x o stopping s).line m).Empty) := by
  have hlike {t : State} (h : Alike s t) : (t.line m).outline = (s.line m).outline ∧
      ((∀ r t, x.carried = .transfer r t → (s.record r).line = l) → (m = l → stopping = true) →
        (s.line m).Empty → (t.line m).Empty) := ⟨(h.like m).outline, fun _ _ => (h.like m).empty⟩
  unfold tellOwners
  split
  · exact hlike (((alike_tellNode ..).trans (alike_loseTransfers ..)).trans (alike_tellStore ..))
  · rename_i r t hc
    have hnode := (alike_tellNode t.index x.frame o l s).like m
    obtain ⟨ho, he⟩ := like_tellRecord (l := l) (r := r) o (s.node t.index).removalPending
      (tellNode t.index x.frame o l s).2 stopping (tellNode t.index x.frame o l s).1 m
    have hlose := (alike_loseTransfers l t.index (tellNode t.index x.frame o l s).2
      (tellRecord r o (s.node t.index).removalPending (tellNode t.index x.frame o l s).2 stopping
        (tellNode t.index x.frame o l s).1)).like m
    have hrecord : (tellNode t.index x.frame o l s).1.record r = s.record r := by simp [tellNode_eq]
    exact ⟨(hlose.outline.trans ho).trans hnode.outline, fun hline hs hempty =>
      hlose.empty (he (hrecord ▸ hline r _ hc) hs (hnode.empty hempty))⟩
  · rename_i r hc
    obtain ⟨ho, he⟩ := like_tellRecord (l := l) (r := r) o false false stopping s m
    exact ⟨ho, fun hline => he (hline r _ hc)⟩
  · exact hlike (alike_tellInvite ..)
  · exact hlike (alike_tellAssign ..)

end Sys2Proof.Machine

/-! Good lines through the events of a line: outcomes, faults, choices, the ends of exchanges and runs. -/

namespace Sys2Proof.Machine

/-! ### Outcomes -/

/-- The record that a line's exchange carries is the line's own (R32). -/
def State.CarriesOwn (s : State) (l : Line) : Prop :=
  ∀ x r t, (s.line l).engine.unfixed = some x → x.carried = .transfer r t → (s.record r).line = l

theorem PoolOk.carriesOwn {s : State} (h : PoolOk s) (l : Line) : s.CarriesOwn l := by
  intro x r t hx hc
  have hfly : s.config.flying l = some r := by
    rw [State.flying_config, LineBlock.flying, hx]
    simp [hc, Carried.record]
  exact ((((poolOk_iff s).1 h).places r).flying l).1 hfly |>.2

theorem LineState.stopping_of_watched {st : LineState} (hw : st.watched = true)
    (h : st = .down ∨ st = .stopping) : st = .stopping :=
  h.resolve_left (by rintro rfl; cases hw)

/-- An outcome that ends an exchange without contention, fault or abort (R34). -/
theorem ExchangeOutcome.counts_spec {o : ExchangeOutcome} (h : o.counts = true) (run : Nat) :
    o ≠ .aborted ∧ contentionRunAfter o run = 0 := by
  cases o with
  | reply _ | noReply | badReply | sent => exact ⟨(nomatch ·), rfl⟩
  | contention | lineFault | aborted => cases h

theorem judgeReply_counts (f : MasterFrame) (got : List Byte) : (judgeReply f got).counts = true := by
  unfold judgeReply
  split
  · dsimp only
    split
    · split <;> rfl
    · rfl
  · rfl

section
variable {q : Prop} {s : State} {l : Line} {P Q : LineBlock → Prop}

/-- An outcome at the lines: the wire side on `l`, and no more that counts. -/
theorem State.At.fixOutcome {x : Exchange} {o : ExchangeOutcome} (h : s.At q l P)
    (hx : (s.line l).engine.unfixed = some x) (hc : q → s.CarriesOwn l)
    (hQ : ∀ b, b.outline = ((s.line l).left x o).outline →
      (q → (s.line l).guard.lineState = .stopping → (s.line l).Empty → b.Empty) → Q b) :
    (Machine.fixOutcome l o s).At q l Q := by
  have htold := like_tellOwners (l := l) (x := x) o ((s.line l).guard.lineState == .stopping)
    (leaveWire l x o s)
  have hown : q → ∀ r t, x.carried = .transfer r t → ((leaveWire l x o s).record r).line = l := by
    intro hq r t hr
    rw [leaveWire_left, State.record_setLine]
    exact hc hq x r t hx hr
  have hwire (m : Line) : (leaveWire l x o s).line m = if m = l then (s.line l).left x o
      else s.line m := by rw [leaveWire_left, State.line_setLine]
  rw [fixOutcome_some hx]
  refine ⟨hQ _ ?_ fun hq hs he => ?_, fun m hm => ?_⟩
  · rw [(htold l).1, hwire, if_pos rfl]
  · refine (htold l).2 (hown hq) (fun _ => by simpa using hs) ?_
    rw [hwire, if_pos rfl]
    exact he
  · obtain ⟨ho, he⟩ := htold m
    rw [hwire, if_neg hm] at ho he
    exact ⟨(h.2 m hm).legal.of_outline ho, fun hq hs => he (hown hq) (fun hm' => absurd hm' hm)
      ((h.2 m hm).empty hq (LineBlock.lineState_of_outline ho ▸ hs))⟩

/-- A line within an exchange, legal but for the engine's place in it. -/
structure LineBlock.InExchange (q : Prop) (x : Exchange) (b : LineBlock) : Prop where
  unfixed : b.engine.unfixed = some x
  legal : ∃ e y, e.unfixed = some y ∧ LineBlock.Legal { b with engine := e }
  empty : q → b.guard.lineState = .stopping → b.Empty

theorem LineBlock.Good.inExchange {b : LineBlock} {x : Exchange} (h : b.Good q)
    (hx : b.engine.unfixed = some x) : b.InExchange q x :=
  ⟨hx, ⟨b.engine, x, hx, h.legal⟩, fun hq hs => h.empty hq (.inr hs)⟩

/-- An outcome that runs its course leaves good lines. -/
theorem good_fixOutcome {x : Exchange} {o : ExchangeOutcome} (h : s.At q l (LineBlock.InExchange q x))
    (hc : q → s.CarriesOwn l) (ho : o.counts = true) : (fixOutcome l o s).Good q := by
  obtain ⟨hx, ⟨e, y, he, hlegal⟩, hempty⟩ := h.1
  obtain ⟨hne, hrun⟩ := ExchangeOutcome.counts_spec ho (s.line l).guard.contentionRun
  refine State.At.good (h.fixOutcome hx hc fun b hb hbe => ?_)
  have hleft : ((s.line l).left x o).Legal := hlegal.left (x := x) he hne (by
    show contentionRunAfter o (s.line l).guard.contentionRun < 3
    omega)
  refine ⟨hleft.of_outline hb, fun hq hs => ?_⟩
  have hsame : b.guard.lineState = ((s.line l).left x o).guard.lineState :=
    LineBlock.lineState_of_outline hb
  have hwatched : (s.line l).guard.lineState.watched = true := hlegal.watched_of_unfixed he
  rw [hsame] at hs
  have hstop : (s.line l).guard.lineState = .stopping := LineState.stopping_of_watched hwatched hs
  exact hbe hq hstop (hempty hq hstop)

/-- The same from a good state, whatever the engine holds. -/
theorem good_fixOutcome_of_good {o : ExchangeOutcome} (h : s.Good q) (hc : q → s.CarriesOwn l)
    (ho : o.counts = true) : (fixOutcome l o s).Good q := by
  cases hx : (s.line l).engine.unfixed with
  | none => rwa [fixOutcome_none hx]
  | some x => exact good_fixOutcome ((h.at l).mono fun hg => hg.inExchange hx) hc ho

/-- An outcome leaves the line sane, its engine in GUARD or IDLE. -/
theorem sane_fixOutcome {o : ExchangeOutcome} (h : s.At q l LineBlock.Sane)
    (hc : q → s.CarriesOwn l)
    (hrun : (s.line l).engine.unfixed ≠ none →
      contentionRunAfter o (s.line l).guard.contentionRun ≤ 3) :
    (fixOutcome l o s).At q l fun b => b.Sane ∧ b.engine.unfixed = none := by
  cases hx : (s.line l).engine.unfixed with
  | none =>
    rw [fixOutcome_none hx]
    exact h.mono fun hs => ⟨hs, hx⟩
  | some x =>
    refine h.fixOutcome hx hc fun b hb _ =>
      ⟨(h.1.left x (hrun (by simp [hx]))).of_outline hb, ?_⟩
    rw [LineBlock.engine_of_outline hb]
    exact engineAfter_unfixed ..

/-! ### Runs that end -/

/-- A line that is good once its run has ended. -/
def LineBlock.Ends (q : Prop) (b : LineBlock) : Prop := ∀ r, (b.afterRunBlock r).Good q

theorem LineBlock.afterRun_outline (b : LineBlock) (r : StopReason) : (b.afterRunBlock r).outline =
    { b.outline with
      discovery := { b.outline.discovery with
        active := false
        stopPending := if b.discovery.active = true then .none else b.discovery.stopPending }
      scheduler := { b.outline.scheduler with
        stepInProgress := !b.discovery.active && b.scheduler.stepInProgress } } := by
  cases ha : b.discovery.active <;>
    simp [LineBlock.outline, LineBlock.afterRunBlock, Machine.afterRun, ha, Discovery.reset]

theorem LineBlock.Like.afterRun {new old : LineBlock} (h : new.Like old) (r r' : StopReason) :
    (new.afterRunBlock r).Like (old.afterRunBlock r') := by
  have ha : new.discovery.active = old.discovery.active :=
    congrArg (fun b => b.discovery.active) h.outline
  have hp : new.discovery.stopPending = old.discovery.stopPending :=
    congrArg (fun b => b.discovery.stopPending) h.outline
  have hs : new.scheduler.stepInProgress = old.scheduler.stepInProgress :=
    congrArg (fun b => b.scheduler.stepInProgress) h.outline
  refine ⟨?_, h.empty⟩
  rw [LineBlock.afterRun_outline, LineBlock.afterRun_outline, h.outline, ha, hp, hs]

theorem LineBlock.Ends.like {new old : LineBlock} (h : new.Like old) (ho : old.Ends q) : new.Ends q :=
  fun r => (ho r).like (h.afterRun r r)

theorem good_endRun (h : s.At q l (LineBlock.Ends q)) (r : StopReason) : (endRun l r s).Good q := by
  obtain ⟨hl, -, -, -, -, ho, -⟩ := endRun_spec l r s
  intro m
  by_cases hm : m = l
  · subst hm
    refine (h.1 .done).like ⟨?_, ?_⟩
    · rw [hl, LineBlock.afterRun_outline]
      cases ha : (s.line m).discovery.active <;>
        simp [LineBlock.outline, ha, Discovery.reset, Discovery.ended]
    · rw [hl]
      exact id
  · have hother : m = otherLine l := by cases l <;> cases m <;> simp_all [otherLine]
    rw [hother, ho, ← hother]
    exact h.2 m hm

theorem good_endRunPending (h : s.At q l (LineBlock.Ends q)) (r : StopReason) :
    (endRunPending l r s).Good q := good_endRun h _

theorem LineBlock.Near.ends {b : LineBlock} (h : b.Near)
    (he : q → b.guard.lineState = .down ∨ b.guard.lineState = .stopping → b.Empty) : b.Ends q :=
  fun r => ⟨h.afterRun r, he⟩

theorem LineBlock.Stopped.ends {b : LineBlock} (h : b.Stopped) (hs : b.Sane) (he : q → b.Empty) :
    b.Ends q := fun r => ⟨h.afterRun hs r, fun hq _ => he hq⟩

theorem LineBlock.Sane.ends_enterFault {b : LineBlock} (h : b.Sane) (he : b.engine.unfixed = none)
    {why : FaultReason} (hw : why ≠ .none) : (b.enterFault why).Ends q :=
  fun r => .of_legal (h.enterFault hw he r) (nomatch ·) (nomatch ·)

/-! ### Faults -/

theorem good_enterFaulted (h : s.At q l LineBlock.Sane) (hc : q → s.CarriesOwn l)
    {why : FaultReason} (hw : why ≠ .none) : (enterFaulted l why s).Good q := by
  have hfix := sane_fixOutcome (o := .lineFault) h hc fun _ => h.1.contention
  have hfault : ((fixOutcome l .lineFault s).updLine l fun b => b.enterFault why).At q l
      (LineBlock.Ends q) := hfix.updLine fun ⟨hs, he⟩ => hs.ends_enterFault he hw
  exact good_endRunPending (hfault.alike (alike_raiseLineNotice ..) LineBlock.Ends.like) _

theorem good_enterFaulted_of_good (h : s.Good q) (hc : q → s.CarriesOwn l) {why : FaultReason}
    (hw : why ≠ .none) : (enterFaulted l why s).Good q :=
  good_enterFaulted ((h.at l).mono fun hg => hg.legal.sane) hc hw

/-- The exchange of `l` has left the engine: nothing of a record is carried any more. -/
theorem State.CarriesOwn.of_fixed (h : (s.line l).engine.unfixed = none) : s.CarriesOwn l :=
  fun x _ _ hx => by rw [h] at hx; cases hx

/-- CONTENTION, and the fault that a third in a row is (R121). -/
theorem good_fixContention (h : s.Good q) (hc : q → s.CarriesOwn l) :
    (fixContention l s).Good q := by
  have hl := (h l).legal
  unfold fixContention
  dsimp only
  cases hx : (s.line l).engine.unfixed with
  | none =>
    rw [fixOutcome_none hx]
    split
    · exact good_enterFaulted_of_good h hc (nomatch ·)
    · exact h
  | some x =>
    have hwatched := hl.watched_of_unfixed hx
    have hrun : (s.line l).guard.contentionRun < 3 := hl.contention.2 (.inr hwatched)
    split
    · have hsane := sane_fixOutcome (o := .contention) ((h.at l).mono fun hg => hg.legal.sane) hc
        fun _ => hrun
      refine good_enterFaulted (hsane.mono fun hs => hs.1) (fun _ => .of_fixed hsane.1.2) (nomatch ·)
    · rename_i hlow
      refine State.At.good ((h.at l).fixOutcome hx hc fun b hb hbe => ?_)
      have hthis := ((h.at l).fixOutcome (o := .contention) (Q := fun b =>
        b.outline = ((s.line l).left x .contention).outline) hx hc fun b hb _ => hb).1
      have hstate := LineBlock.lineState_of_outline hthis
      have hcount := LineBlock.contentionRun_of_outline hthis
      have hless : contentionRunAfter .contention (s.line l).guard.contentionRun < 3 := by
        rw [hstate, hcount, Bool.and_eq_true, not_and'] at hlow
        exact not_le.1 fun h3 => hlow hwatched (decide_eq_true h3)
      refine ⟨(hl.left (o := .contention) hx (nomatch ·) hless).of_outline hb, fun hq hs => ?_⟩
      have hsame : b.guard.lineState = ((s.line l).left x .contention).guard.lineState :=
        LineBlock.lineState_of_outline hb
      rw [hsame] at hs
      have hstop := LineState.stopping_of_watched hwatched hs
      exact hbe hq hstop ((h l).empty hq (.inr hstop))

end

end Sys2Proof.Machine

/-! Good lines through the scheduler's choices, the events of a line's engine and its guard. -/

namespace Sys2Proof.Machine

section
variable {q : Prop} {s : State} {l : Line}

/-! ### Exchanges that begin (R54 to R64) -/

/-- A RUNNING line, legal but for an exchange that has just ended. -/
def LineBlock.Going (b : LineBlock) : Prop := b.Near ∧ b.guard.lineState = .running

theorem LineBlock.Going.like {new old : LineBlock} (h : new.Like old) (ho : old.Going) : new.Going :=
  ⟨ho.1.of_outline h.outline, (LineBlock.lineState_of_outline h.outline).trans ho.2⟩

theorem LineBlock.Good.of_running {b : LineBlock} (h : b.Legal) (hr : b.guard.lineState = .running) :
    b.Good q := .of_legal h (by simp [hr]) (by simp [hr])

theorem LineBlock.Going.ends {b : LineBlock} (h : b.Going) : b.Ends q :=
  h.1.ends fun _ hs => by simp [h.2] at hs

theorem good_beginExchange (h : s.At q l LineBlock.Going) (x : Exchange) :
    (beginExchange l x s).Good q := by
  rw [beginExchange_eq]
  exact State.At.good (h.setLine (.of_running (h.1.1.sends h.1.2 x) h.1.2))

theorem good_pickRecord (h : s.At q l LineBlock.Going) (r : RecordIndex) :
    (pickRecord l r s).Good q := by
  have herase : Alike s (s.updLine l fun b => { b with
      urgent := b.urgent.erase r, normal := b.normal.erase r }) :=
    alike_updLine ⟨rfl, fun ⟨hu, hn⟩ => ⟨by simp [hu], by simp [hn]⟩⟩
  exact good_beginExchange (h.alike (herase.trans (alike_setRecord ..)) LineBlock.Going.like) _

theorem good_pickPoll (h : s.At q l LineBlock.Going) (i : EntryIndex) : (pickPoll l i s).Good q := by
  have hwalk : (s.updScheduler l fun c => { c with walk := i.val + 1, interleaveCount := 0 }).At q l
      LineBlock.Going := h.updLine fun hg => ⟨hg.1.counts (by omega) (by omega), hg.2⟩
  unfold pickPoll
  dsimp only
  split
  · exact good_beginExchange (hwalk.alike (alike_setSlot ..) LineBlock.Going.like) _
  · exact good_beginExchange hwalk _

theorem going_walkComplete (h : s.At q l LineBlock.Going) :
    (walkComplete l s).At q l LineBlock.Going :=
  h.updLine fun hg => ⟨hg.1.counts le_rfl hg.1.interleave, hg.2⟩

theorem LineBlock.Legal.walkComplete {b : LineBlock} (h : b.Legal) {turn : Bool} :
    LineBlock.Legal { b with scheduler := { b.scheduler with walk := 64, turnTaken := turn } } :=
  { h.toNear.counts (turn := turn) le_rfl h.interleave with busy := h.busy }

/-- A step opens on a run's line that is RUNNING (R58). -/
theorem good_openStep (h : s.Good q) (hr : (s.line l).guard.lineState = .running)
    (ha : (s.line l).discovery.active = true) : (openStep l s).Good q := by
  unfold openStep
  split
  · exact h
  · have hstep : (s.updScheduler l fun c => { c with stepInProgress := true }).At q l
        LineBlock.Going := (h.at l).updLine fun hg =>
      ⟨{ hg.legal with
        step := fun _ => ⟨ha, by rw [hr]; rfl⟩
        stopPending := fun _ => rfl }, hr⟩
    exact good_beginExchange hstep _

theorem LineBlock.Legal.endCycle {b : LineBlock} (h : b.Legal) (hr : b.guard.lineState = .running)
    {cycle : Word16} {counters : LineCounters} {d : Duration} :
    LineBlock.Legal { b with
      scheduler := { b.scheduler with cycle := cycle, walk := 0, turnTaken := false, floor := .running d }
      guard := { b.guard with counters := counters } } :=
  { h with
    floor := iff_of_false (nomatch ·) (not_not.2 hr)
    walk := Nat.zero_le _ }

theorem good_endCycle (h : s.Good q) (hr : (s.line l).guard.lineState = .running) :
    (endCycle l s).Good q :=
  State.At.good ((h.at l).updLine fun hg => .of_running (hg.legal.endCycle hr) hr)

theorem lineState_endCycle (s : State) (l : Line) :
    ((endCycle l s).line l).guard.lineState = (s.line l).guard.lineState := by
  rw [endCycle, State.updLine_eq, State.line_setLine_self]

/-! ### The order of choice (Table 3-4) -/

/-- What the order of choice has looked at before it makes a choice (R56, R58). -/
def Choice.Fits (c : Choice) (b : LineBlock) : Prop :=
  match c with
  | .normal _ => b.scheduler.interleaveCount < b.guard.params.interleave.toNat
  | .discovery => b.discovery.active = true
  | _ => True

theorem afterWalk_fits (b : LineBlock) : (afterWalk b).Fits b := by
  unfold afterWalk
  split
  · rename_i h
    simp only [Bool.and_eq_true] at h
    exact h.1.2
  · split
    · trivial
    · split <;> trivial

theorem afterQueues_fits (l : Line) (s : State) : (afterQueues l s).Fits (s.line l) := by
  unfold afterQueues
  split
  · trivial
  · exact afterWalk_fits _

theorem orderOfChoice_fits (l : Line) (s : State) : (orderOfChoice l s).Fits (s.line l) := by
  unfold orderOfChoice
  dsimp only
  split
  · trivial
  · split
    · assumption
    · exact afterQueues_fits l s
  · exact afterQueues_fits l s

theorem LineParams.interleave_le {p : LineParams} (h : p.inRange = true) : p.interleave.toNat ≤ 8 := by
  simp only [LineParams.inRange, within, Bool.and_eq_true, decide_eq_true_eq] at h
  omega

theorem good_applyChoice (h : s.Good q) (hr : (s.line l).guard.lineState = .running) {c : Choice}
    (hc : c.Fits (s.line l)) : (applyChoice l c s).Good q := by
  have hgoing : s.At q l LineBlock.Going := (h.at l).mono fun hg => ⟨hg.legal.toNear, hr⟩
  have hlegal := (h l).legal
  cases c with
  | urgent r => exact good_pickRecord hgoing r
  | normal r =>
    have hcount : (s.line l).scheduler.interleaveCount + 1 ≤ 8 :=
      (Nat.succ_le_of_lt hc).trans (LineParams.interleave_le hlegal.params)
    exact good_pickRecord (hgoing.updLine fun hg => ⟨hg.1.counts hg.1.walk hcount, hg.2⟩) r
  | poll i => exact good_pickPoll hgoing i
  | discovery =>
    have hactive : (s.line l).discovery.active = true := hc
    have hwalk : (walkComplete l s).At q l (LineBlock.Good q) :=
      (h.at l).updLine fun hg => .of_running hg.legal.walkComplete hr
    have hturn : ((walkComplete l s).updScheduler l fun c => { c with turnTaken := true }).At q l
        (LineBlock.Good q) := hwalk.updLine fun hg => ⟨{ hg.legal with }, hg.empty⟩
    exact good_openStep hturn.good (by simpa [walkComplete, State.updScheduler_eq] using hr)
      (by simpa [walkComplete, State.updScheduler_eq] using hactive)
  | lateNormal r => exact good_pickRecord (going_walkComplete hgoing) r
  | endCycle => exact good_endCycle h hr
  | wait => exact State.At.good ((h.at l).updLine fun hg => .of_running hg.legal.walkComplete hr)

theorem good_choose (h : s.Good q) : (choose l s).Good q := by
  unfold choose
  split
  · rename_i he
    obtain ⟨-, hr, -, -⟩ := (s.line l).entitled_iff.1 he
    split
    · exact good_applyChoice (good_endCycle h hr) ((lineState_endCycle s l).trans hr)
        (orderOfChoice_fits ..)
    · exact good_applyChoice h hr (orderOfChoice_fits ..)
  · exact h

/-! ### A step of discovery goes on (R102 to R114) -/

theorem good_sendAssign (h : s.At q l LineBlock.Going) (a : Assignment) (x : Identity) :
    (sendAssign l a x s).Good q :=
  good_beginExchange (h.alike (alike_updDiscovery rfl rfl) LineBlock.Going.like) _

theorem good_decideAssignment (h : s.At q l LineBlock.Going) (x : Identity) :
    (decideAssignment l x s).Good q := by
  have hends : s.At q l (LineBlock.Ends q) := h.mono LineBlock.Going.ends
  unfold decideAssignment
  split
  · exact good_sendAssign h _ x
  · split
    · exact good_endRun hends _
    · split
      · exact good_endRun hends _
      · exact good_sendAssign (h.alike (alike_setNode ..) LineBlock.Going.like) _ x

/-- A step ends where no stop is pending. -/
theorem good_endStep (h : s.At q l LineBlock.Going)
    (hp : (s.line l).discovery.stopPending = .none) : (endStep l s).Good q :=
  State.At.good (h.updLine fun hg => .of_running { hg.1 with
    step := (nomatch ·)
    stopPending := fun hn => absurd hp hn
    busy := (nomatch ·) } hg.2)

theorem good_continueStep (h : s.At q l LineBlock.Going) (c : Carried) :
    (continueStep l c s).Good q := by
  have hends : s.At q l (LineBlock.Ends q) := h.mono LineBlock.Going.ends
  unfold continueStep
  dsimp only
  split
  · exact good_endRun hends _
  · split
    · exact good_endRun hends _
    · exact good_endRun hends _
    · rename_i hp
      split
      · exact good_decideAssignment h _
      · split
        · exact good_sendAssign h _ _
        · exact good_endStep h hp
      · exact good_endStep h hp

theorem alike_forgetAssignment (l : Line) (s : State) : Alike s (forgetAssignment l s) := by
  unfold forgetAssignment
  exact alike_updDiscovery rfl rfl

theorem good_exchangeEnded (h : s.At q l LineBlock.Going) (c : Carried) (gone : Bool) :
    (exchangeEnded l c gone s).Good q := by
  unfold exchangeEnded
  dsimp only
  split
  · cases gone with
    | false => exact good_continueStep h c
    | true => exact good_continueStep (h.alike (alike_forgetAssignment l s) LineBlock.Going.like) c
  · rename_i hno
    refine State.At.good (h.mono fun hg => .of_running ⟨hg.1, fun hs => ?_⟩ hg.2)
    exact absurd (by rw [(hg.1.step hs).1, hs]; rfl) hno

/-! ### The end of an exchange (R84, R86, R126) -/

/-- A line whose engine is IDLE, and whose queues are empty where that is asked for. -/
def LineBlock.Quits (q : Prop) (b : LineBlock) : Prop :=
  b.Sane ∧ b.engine = .idle ∧ (q → b.Empty)

theorem LineBlock.Stopped.like {new old : LineBlock} (h : new.Like old) (ho : old.Stopped) :
    new.Stopped := by
  have hg := congrArg (fun b => b.guard) h.outline
  have hp := congrArg (fun b => b.pins) h.outline
  have hc := congrArg (fun b => b.scheduler) h.outline
  simp only [LineBlock.outline, LineGuard.mk.injEq, LinePins.mk.injEq, Scheduler.mk.injEq] at hg hp hc
  obtain ⟨hstate, -, hafter, hreason, -, hhold, hwatch, -, -, -, -, hstuck⟩ := hg
  obtain ⟨htx, hde, -⟩ := hp
  obtain ⟨hrunning, -, -, -, hfloor, -, hstep⟩ := hc
  exact ⟨(LineBlock.engine_of_outline h.outline).trans ho.engine,
    by rw [hstate, hafter, hreason, hhold, hwatch, hstuck]; exact ho.guard,
    by rw [htx, hde]; exact ho.pins, by rw [hrunning, hfloor, hstep]; exact ho.scheduler⟩

theorem finishExchange_line (l : Line) (c : Carried) (s : State) :
    Alike (s.setLine l { s.line l with engine := .idle }) (finishExchange l c s) :=
  alike_finishTarget ..

theorem good_completeStop (h : s.At q l (LineBlock.Quits q)) : (completeStop l s).Good q := by
  have hdown : (s.updLine l LineBlock.goDown).At q l (LineBlock.Ends q) :=
    h.updLine fun ⟨hs, he, hempty⟩ => (LineBlock.Stopped.goDown he).ends hs.goDown hempty
  have hnote := hdown.alike (alike_raiseLineNotice l _) LineBlock.Ends.like
  unfold completeStop
  dsimp only
  split
  · exact good_endRun hnote _
  · exact good_endRunPending hnote _

/-- The line of a GUARD whose engine returns to IDLE. -/
theorem LineBlock.Legal.idled {b : LineBlock} (h : b.Legal) {x : Exchange} {o : ExchangeOutcome}
    {d : Duration} (he : b.engine = .guard x o d) (hs : b.guard.lineState ≠ .stopping) :
    LineBlock.Near { b with engine := .idle } := by
  have hde : b.pins.de = false := by
    by_contra hd
    rw [Bool.not_eq_false] at hd
    have hfits := h.engine
    have hwatch := h.watch
    rcases h.driver hd with h' | h'
    · rw [he] at h'; cases h'
    · cases hls : b.guard.lineState <;> cases hw : b.guard.watch <;>
        simp_all [LineState.engineFits, LineState.watchFits, Watch.isWakeBreak]
  have htx := h.tx
  refine { h with
    engine := ?_
    driver := fun hd => absurd (hde.symm.trans hd) (by decide)
    echo := rfl
    tx := by simpa [LineBlock.txExpected, hde] using htx }
  cases hls : b.guard.lineState <;> simp_all [LineState.engineFits, Engine.isFixed]

/-- A line with its engine IDLE that is in no step. -/
theorem LineBlock.Near.good {b : LineBlock} (h : b.Near)
    (hs : b.scheduler.stepInProgress = false)
    (he : q → b.guard.lineState = .down ∨ b.guard.lineState = .stopping → b.Empty) : b.Good q :=
  ⟨⟨h, fun h' => absurd (hs.symm.trans h') (by decide)⟩, he⟩

theorem LineBlock.Near.stepInProgress_of_not_watched {b : LineBlock} (h : b.Near)
    (hw : b.guard.lineState.watched = false) : b.scheduler.stepInProgress = false := by
  by_contra hs
  exact absurd (hw.symm.trans (h.step (by simpa using hs)).2) (by decide)

/-- The end of an exchange whose outcome is fixed. -/
theorem at_finishExchange {P Q : LineBlock → Prop} (h : s.At q l P) (c : Carried)
    (hb : P (s.line l) → Q { s.line l with engine := .idle })
    (hQ : ∀ {b b'}, LineBlock.Like b' b → Q b → Q b') : (finishExchange l c s).At q l Q :=
  (h.setLine (hb h.1)).alike (finishExchange_line l c s) hQ

theorem LineBlock.Quits.like {new old : LineBlock} (h : new.Like old) (ho : old.Quits q) :
    new.Quits q :=
  ⟨ho.1.of_outline h.outline, (LineBlock.engine_of_outline h.outline).trans ho.2.1,
    fun hq => h.empty (ho.2.2 hq)⟩

theorem good_expireGuard (h : s.Good q) : (expireGuard l s).Good q := by
  have hl := (h l).legal
  unfold expireGuard
  split
  · rename_i x o d he
    dsimp only
    split
    · rename_i hr
      refine good_choose (good_exchangeEnded (at_finishExchange (h.at l) _ (fun _ => ?_)
        LineBlock.Going.like) _ _)
      exact ⟨hl.idled he (by simp [hr]), hr⟩
    · rename_i hs
      refine good_completeStop (at_finishExchange (h.at l) _ (fun hg => ?_) LineBlock.Quits.like)
      exact ⟨{ hl.sane with }, rfl, fun hq => hg.empty hq (.inr hs)⟩
    · rename_i hr hs
      refine State.At.good (at_finishExchange (h.at l) _ (fun hg => ?_) LineBlock.Good.like)
      have hidle := hl.idled he hs
      have hunwatched : (s.line l).guard.lineState.watched = false := by
        cases hls : (s.line l).guard.lineState <;> simp_all [LineState.watched]
      exact hidle.good (hl.stepInProgress_of_not_watched hunwatched) hg.empty
  · exact h

theorem good_expireDeadline (h : s.Good q) (r : RecordIndex) : (expireDeadline r s).Good q := by
  unfold expireDeadline
  dsimp only
  split
  · exact h.alike (alike_completeFromQueue ..)
  · exact h

theorem good_elapseFloor (h : s.Good q) : (elapseFloor l s).Good q := by
  unfold elapseFloor
  split
  · rename_i d hf
    refine good_choose (State.At.good ((h.at l).updLine fun hg => ⟨{ hg.legal with
      floor := iff_of_false (nomatch ·) ?_ }, hg.empty⟩))
    rw [← hg.legal.floor, hf]
    exact (nomatch ·)
  · exact h

/-! ### The engine's events -/

theorem PoolOk.of_reaches {t : State} (h : Reaches s t) (hs : PoolOk s) : PoolOk t :=
  (poolOk_iff t).2 (Moves.keep poolFits_of_move h ((poolOk_iff s).1 hs))

/-- The engine moves on within its exchange with the driver as it is. -/
theorem good_setEngine (h : s.Good q) {x y : Exchange} {e : Engine}
    (hx : (s.line l).engine.unfixed = some x) (he : e.unfixed = some y)
    (hs : e.isSending = (s.line l).engine.isSending)
    (hf : e.echoFits (s.line l).pins.de = true) : (s.setEngine l e).Good q :=
  State.At.good ((h.at l).updLine fun hg => ⟨hg.legal.engineMoves hx he hs hf, hg.empty⟩)

/-- The driver is released by a line within an exchange: TX rests, and a dominant run begins only where
one is watched for (R120). -/
theorem LineBlock.InExchange.releaseDriver {x : Exchange} (h : (s.line l).InExchange q x) :
    ∃ run : Timer, (run.isSome = true → (s.line l).guard.lineState.watched = true) ∧
      Machine.releaseDriver l s = s.setLine l { s.line l with
        pins := { (s.line l).pins with tx := .rest, de := false }
        guard := { (s.line l).guard with stuckRun := run } } := by
  obtain ⟨e, y, he, hlegal⟩ := h.legal
  rw [Machine.releaseDriver_eq]
  cases hd : (s.line l).pins.de with
  | true =>
    exact ⟨(s.line l).runOnRelease, LineBlock.runOnRelease_isSome, by simp only [if_true]⟩
  | false =>
    refine ⟨(s.line l).guard.stuckRun, fun hr => (hlegal.stuckRun hr).1, ?_⟩
    have htx : (s.line l).pins.tx = .rest := by simpa [LineBlock.txExpected, hd] using hlegal.tx
    have hpins : (s.line l).pins = { (s.line l).pins with tx := .rest, de := false } := by
      rw [← htx, ← hd]
    rw [if_neg (by decide), if_neg (by decide), ← hpins]

/-- The driver is released and the engine goes on within its exchange. -/
theorem good_release {x y : Exchange} {e : Engine} (h : s.At q l (LineBlock.InExchange q x))
    (he : e.unfixed = some y) (hf : e.echoFits false = true) :
    ((releaseDriver l s).setEngine l e).Good q := by
  obtain ⟨run, hrun, hrelease⟩ := h.1.releaseDriver
  obtain ⟨e', y', he', hlegal⟩ := h.1.legal
  have hwatched : (s.line l).guard.lineState.watched = true := hlegal.watched_of_unfixed he'
  rw [hrelease, State.setEngine_eq, State.line_setLine_self, State.setLine_setLine]
  exact State.At.good (h.setLine ⟨hlegal.released he' he hf hrun, fun hq hs =>
    h.1.empty hq (LineState.stopping_of_watched hwatched hs)⟩)

/-- The frame has been sent: legal lines, whatever the count of echoes stood at. -/
theorem good_endFrameSent {x : Exchange} (h : s.At q l (LineBlock.InExchange q x))
    (hc : q → s.CarriesOwn l) : (endFrameSent l x s).Good q := by
  unfold endFrameSent
  split
  · exact good_fixOutcome h hc rfl
  · have hwindow : (openWindow l x s).Good q := good_release (y := x) h rfl rfl
    exact hwindow.alike (alike_pollTransmitted ..)

theorem good_sendFrame (h : s.Good q) (hp : q → PoolOk s) : (sendFrame l s).Good q := by
  unfold sendFrame
  split
  · rename_i x n he
    have hx : (s.line l).engine.unfixed = some x := by rw [he]; rfl
    have hexchange := (h.at l).mono fun hg => hg.inExchange hx
    split
    · exact good_endFrameSent hexchange fun hq => (hp hq).carriesOwn l
    · split
      · rename_i hlast
        have hrelease := good_release (e := .sending x n false) (y := x) hexchange rfl
          (by simp [Engine.echoFits, hlast])
        have hsame : (releaseDriver l s).setEngine l (.sending x n false) = releaseDriver l s := by
          obtain ⟨run, -, hr⟩ := hexchange.1.releaseDriver
          rw [hr, State.setEngine_eq, State.line_setLine_self, State.setLine_setLine, ← he]
        rwa [hsame] at hrelease
      · exact h
  · exact h

theorem good_echoCharacter (h : s.Good q) (hp : q → PoolOk s) {x : Exchange} {n : Nat}
    (he : (s.line l).engine = .sending x n false) (c : ReceivedCharacter) :
    (echoCharacter l x n c s).Good q := by
  have hx : (s.line l).engine.unfixed = some x := by rw [he]; rfl
  have hsend : (s.line l).engine.isSending = true := by rw [he]; rfl
  unfold echoCharacter
  split
  · rename_i sent hs
    have hn : n < x.frame.characters.length := (List.getElem?_eq_some_iff.1 hs).1
    dsimp only
    split
    · split
      · rename_i hd
        exact good_setEngine h hx (y := x) rfl hsend.symm (by simp [Engine.echoFits, hd]; omega)
      · rename_i hd
        have hcount : x.frame.characters.length = n + 1 := by
          have := (h l).legal.echo
          simpa [he, hd, Engine.echoFits, hn.le] using this
        have hreach : Reaches s (s.setEngine l (.sending x (n + 1) false)) :=
          reaches_setEngine hx rfl
        have hexchange : (s.setEngine l (.sending x (n + 1) false)).At q l
            (LineBlock.InExchange q x) := (h.at l).updLine fun hg =>
          ⟨rfl, ⟨_, x, hx, hg.legal⟩, fun hq hs => hg.empty hq (.inr hs)⟩
        rw [sendFrame_matched (x := x) (n := n + 1) (by simp [State.setEngine_eq]) hcount.le]
        exact good_endFrameSent hexchange fun hq => (PoolOk.of_reaches hreach (hp hq)).carriesOwn l
    · split
      · rename_i hd
        exact good_setEngine h hx (y := x) rfl hsend.symm (by simp [Engine.echoFits, hd, hn.le])
      · exact good_fixContention h fun hq => (hp hq).carriesOwn l
  · exact h

theorem good_headCharacter (h : s.Good q) (hp : q → PoolOk s) {x : Exchange} {window : Timer}
    (he : (s.line l).engine = .awaiting x window) (c : ReceivedCharacter) :
    (headCharacter l x window c s).Good q := by
  have hfix {o : ExchangeOutcome} (ho : o.counts = true) : (fixOutcome l o s).Good q :=
    good_fixOutcome_of_good h (fun hq => (hp hq).carriesOwn l) ho
  have hx : (s.line l).engine.unfixed = some x := by rw [he]; rfl
  unfold headCharacter
  split
  · split
    · exact good_setEngine h hx (y := x) rfl (by rw [he]; rfl) rfl
    · split
      · exact hfix rfl
      · exact h
  · exact hfix rfl
  · exact hfix rfl

theorem good_collectCharacter (h : s.Good q) (hp : q → PoolOk s) {x : Exchange} {got : List Byte}
    {gap : Timer} (he : (s.line l).engine = .receiving x got gap) (c : ReceivedCharacter) :
    (collectCharacter l x got c s).Good q := by
  have hfix {o : ExchangeOutcome} (ho : o.counts = true) : (fixOutcome l o s).Good q :=
    good_fixOutcome_of_good h (fun hq => (hp hq).carriesOwn l) ho
  have hx : (s.line l).engine.unfixed = some x := by rw [he]; rfl
  unfold collectCharacter
  dsimp only
  split
  · exact hfix rfl
  · split
    · exact hfix (judgeReply_counts ..)
    · split
      · exact hfix rfl
      · exact good_setEngine h hx (y := x) rfl (by rw [he]; rfl) rfl

theorem good_engineCharacter (h : s.Good q) (hp : q → PoolOk s) (c : ReceivedCharacter) :
    (engineCharacter l c s).Good q := by
  unfold engineCharacter
  split
  · exact h
  · rename_i x n differs he
    split
    · exact h
    · rename_i hd
      rw [Bool.not_eq_true] at hd
      exact good_echoCharacter h hp (hd ▸ he) c
  · rename_i he
    exact good_headCharacter h hp he c
  · rename_i he
    exact good_collectCharacter h hp he c
  · exact h

theorem good_receiveCharacter (h : s.Good q) (hp : q → PoolOk s) (bits : Samples 10) :
    (receiveCharacter l bits s).Good q := by
  unfold receiveCharacter
  dsimp only
  split
  · have hcount (c : ReceivedCharacter) : Reaches s (countCharacter l c s) :=
      reaches_updLine ⟨rfl, rfl, rfl, rfl, id⟩ rfl
    have halike (c : ReceivedCharacter) : Alike s (countCharacter l c s) := alike_updLine ⟨rfl, id⟩
    exact good_engineCharacter (h.alike (halike _)) (fun hq => PoolOk.of_reaches (hcount _) (hp hq)) _
  · exact h

theorem good_completeReply (h : s.Good q) (hp : q → PoolOk s) (bits : Samples 10) :
    (completeReply l bits s).Good q := by
  unfold completeReply
  split
  · split
    · exact good_receiveCharacter h hp bits
    · exact h
  · exact h

theorem good_contend (h : s.Good q) (hp : q → PoolOk s) : (contend l s).Good q := by
  unfold contend
  split
  · exact good_fixContention h fun hq => (hp hq).carriesOwn l
  · exact h

theorem good_expireWindow (h : s.Good q) (hp : q → PoolOk s) : (expireWindow l s).Good q := by
  unfold expireWindow
  dsimp only
  split
  · rename_i x d he
    split
    · exact good_setEngine h (x := x) (y := x) (by rw [he]; rfl) rfl (by rw [he]; rfl) rfl
    · exact good_fixOutcome_of_good h (fun hq => (hp hq).carriesOwn l) rfl
  · exact h

theorem good_exceedGap (h : s.Good q) (hp : q → PoolOk s) : (exceedGap l s).Good q := by
  unfold exceedGap
  split
  · exact good_fixOutcome_of_good h (fun hq => (hp hq).carriesOwn l) rfl
  · exact h

/-! ### The receiver's events -/

theorem good_fromStart {f : LineBlock → LineBlock} (h : s.Good q)
    (hf : (s.line l).Good q → (f (s.line l)).Good q) :
    (s.updLine l (LineBlock.fromStart f)).Good q := by
  refine State.At.good ((h.at l).updLine fun hg => ?_)
  unfold LineBlock.fromStart
  split
  · exact hf hg
  · exact hg

/-- A verified start stops the gap timer of a reply: the engine is where it was. -/
theorem LineBlock.Legal.startSeen {b : LineBlock} (h : b.Legal) {r : Receiver} :
    LineBlock.Legal { b with receiver := r, engine := b.engine.startSeen } := by
  cases he : b.engine with
  | receiving x got gap =>
    have hmoves := h.engineMoves (e := .receiving x got none) (x := x) (y := x) (by rw [he]; rfl) rfl
      (by rw [he]; rfl) rfl
    exact { hmoves with }
  | idle | sending _ _ _ | awaiting _ _ | guard _ _ _ =>
    have hsame : b.engine.startSeen = b.engine := by rw [he]; rfl
    rw [he] at hsame
    rw [hsame, ← he]
    exact { h with }

theorem good_verifyStart (h : s.Good q) (noisy : Bool) : (verifyStart l noisy s).Good q :=
  good_fromStart h fun hg => ⟨hg.legal.startSeen, hg.empty⟩

theorem good_rejectStart (h : s.Good q) : (rejectStart l s).Good q :=
  good_fromStart h fun hg => ⟨{ hg.legal with }, hg.empty⟩

theorem good_armReceiver (h : s.Good q) : (armReceiver l s).Good q := by
  refine State.At.good ((h.at l).updLine fun hg => ?_)
  split
  · exact ⟨{ hg.legal with }, hg.empty⟩
  · exact hg

theorem runAfterLevel_isSome {b : LineBlock} {level : Level}
    (h : (runAfterLevel b level).isSome = true) :
    b.guard.lineState.watched = true ∧ b.pins.de = false := by
  cases level with
  | recessive => cases h
  | dominant =>
    unfold runAfterLevel at h
    dsimp only at h
    split at h
    · rename_i hw
      simpa using hw
    · cases h

theorem good_levelChange (h : s.Good q) (level : Level) :
    (s.updLine l fun b => b.levelChange level).Good q :=
  State.At.good ((h.at l).updLine fun hg =>
    ⟨{ hg.legal with stuckRun := runAfterLevel_isSome }, hg.empty⟩)

end

end Sys2Proof.Machine

/-! Good lines through the guard's events, the requests and every command. -/

namespace Sys2Proof.Machine

section
variable {q : Prop} {s : State} {l : Line}

/-! ### Starting and recovering (R118 to R124) -/

/-- A line that is neither RUNNING, STOPPING nor FAULTED has its engine IDLE and no run. -/
theorem LineBlock.Legal.resting {b : LineBlock} (h : b.Legal)
    (hs : b.guard.lineState = .down ∨ b.guard.lineState = .starting ∨
      b.guard.lineState = .recovering) :
    b.engine = .idle ∧ b.discovery.active = false ∧ b.scheduler.running = false ∧
      b.scheduler.floor = .stopped ∧ b.scheduler.stepInProgress = false ∧
      b.discovery.stopPending = .none ∧ b.guard.stopAfterHold = false ∧ b.guard.stuckRun = none ∧
      b.guard.holdTimer = none := by
  have hwatched : b.guard.lineState.watched = false := by
    rcases hs with hs | hs | hs <;> rw [hs] <;> rfl
  have hstep := h.stepInProgress_of_not_watched hwatched
  have hne : b.guard.lineState ≠ .running ∧ b.guard.lineState ≠ .stopping ∧
      b.guard.lineState ≠ .faulted := by
    rcases hs with hs | hs | hs <;> simp [hs]
  obtain ⟨hrun, hstop, hfault⟩ := hne
  refine ⟨?_, ?_, ?_, h.floor.2 hrun, hstep, ?_, ?_, ?_, ?_⟩
  · have := h.engine
    rcases hs with hs | hs | hs <;> simpa [hs, LineState.engineFits] using this
  · by_contra ha
    exact (h.active (by simpa using ha)).elim hrun fun hs => hstop hs.1
  · by_contra hr
    exact hrun (h.running.1 (by simpa using hr))
  · by_contra hp
    exact absurd (hstep.symm.trans (h.stopPending hp)) (by decide)
  · by_contra ha
    exact hfault (h.stopAfterHold (by simpa using ha))
  · by_contra hr
    exact absurd (hwatched.symm.trans (h.stuckRun (Option.isSome_iff_ne_none.2 hr)).1) (by decide)
  · by_contra hr
    exact hfault (h.hold.1 (Option.isSome_iff_ne_none.2 hr))

/-- A wake break begins at a line that is DOWN or RECOVERING (R118, R124). -/
theorem LineBlock.Legal.enterStarting {b : LineBlock} (h : b.Legal)
    (hs : b.guard.lineState = .down ∨ b.guard.lineState = .starting ∨
      b.guard.lineState = .recovering) {cause : StartCause} {why : FaultReason} {count : BitVec 8}
    (hw : (cause == .recovery) = (why != .none)) :
    LineBlock.Legal { b.enterStarting cause with guard := { (b.enterStarting cause).guard with
      recoveryCount := count, faultReason := why } } := by
  obtain ⟨he, hactive, hrunning, hfloor, hstep, hpending, hafter, -, -⟩ := h.resting hs
  exact {
    engine := by simp [LineBlock.enterStarting, he, LineState.engineFits]
    watch := rfl
    reason := by simpa [LineBlock.enterStarting, LineGuard.reasonFits] using hw
    running := iff_of_false (by simp [LineBlock.enterStarting, hrunning]) (nomatch ·)
    floor := iff_of_true hfloor (nomatch ·)
    driver := fun _ => .inr rfl
    wakeBreak := fun _ => rfl
    echo := by simp [LineBlock.enterStarting, he, Engine.echoFits]
    tx := by simp [LineBlock.enterStarting, LineBlock.txExpected, he, Engine.isSending]
    hold := iff_of_false (nomatch ·) (nomatch ·)
    stopAfterHold := fun h' => absurd (hafter.symm.trans h') (by decide)
    stuckRun := (nomatch ·)
    step := fun h' => absurd (hstep.symm.trans h') (by decide)
    active := fun h' => absurd (hactive.symm.trans h') (by decide)
    stopPending := fun h' => absurd hpending h'
    contention := ⟨Nat.zero_le _, fun _ => Nat.zero_lt_succ _⟩
    walk := h.walk
    interleave := h.interleave
    params := h.params
    busy := fun h' => absurd (hstep.symm.trans h') (by decide) }

theorem good_endWakeBreak (h : s.Good q) : (endWakeBreak l s).Good q := by
  refine State.At.good ((h.at l).updLine fun hg => ?_)
  split
  · rename_i d hs hw
    obtain ⟨he, -, -, -, -, -, -, hstuck, -⟩ := hg.legal.resting (.inr (.inl hs))
    refine .of_legal { hg.legal with
      watch := by simp [hs, LineState.watchFits]
      driver := (nomatch ·)
      wakeBreak := (nomatch ·)
      echo := by simp [he, Engine.echoFits]
      tx := rfl
      stuckRun := fun h' => absurd (hstuck ▸ h' : Option.isSome (none : Timer) = true) (by decide) }
      (by simp [hs]) (by simp [hs])
  · exact hg

/-- The quiet passes: RUNNING, with a scheduler that begins (R62, R119). -/
theorem LineBlock.Legal.enterRunning {b : LineBlock} (h : b.Legal) {d : Duration}
    (hs : b.guard.lineState = .starting) (hw : b.guard.watch = .quiet d) :
    b.enterRunning.startScheduler.Legal := by
  obtain ⟨he, hactive, -, -, -, hpending, hafter, hstuck, hhold⟩ := h.resting (.inr (.inl hs))
  have hde : b.pins.de = false := by
    by_contra hd
    rcases h.driver (by simpa using hd) with h' | h'
    · rw [he] at h'; cases h'
    · rw [hw] at h'; cases h'
  have htx : b.pins.tx = .rest := by simpa [LineBlock.txExpected, hde] using h.tx
  exact {
    engine := rfl
    watch := rfl
    reason := rfl
    running := iff_of_true rfl rfl
    floor := iff_of_false (nomatch ·) (not_not.2 rfl)
    driver := fun hd => absurd (hde.symm.trans hd) (by decide)
    wakeBreak := (nomatch ·)
    echo := by
      show b.engine.echoFits b.pins.de = true
      rw [he]; rfl
    tx := by
      simp [LineBlock.startScheduler, LineBlock.enterRunning, LineBlock.txExpected, hde, htx]
    hold := iff_of_false (by simp [LineBlock.startScheduler, LineBlock.enterRunning, hhold]) (nomatch ·)
    stopAfterHold := fun h' => absurd (hafter.symm.trans h') (by decide)
    stuckRun := fun h' => absurd (hstuck ▸ h' : Option.isSome (none : Timer) = true) (by decide)
    step := (nomatch ·)
    active := fun h' => absurd (hactive.symm.trans h') (by decide)
    stopPending := fun h' => absurd hpending h'
    contention := ⟨h.contention.1, fun _ => h.contention.2 (.inl hs)⟩
    walk := Nat.zero_le _
    interleave := Nat.zero_le _
    params := h.params
    busy := (nomatch ·) }

theorem good_completeQuiet (h : s.Good q) : (completeQuiet l s).Good q := by
  unfold completeQuiet
  dsimp only
  split
  · rename_i d hs hw _
    have hrun : (s.updLine l fun b => b.enterRunning.startScheduler).At q l (LineBlock.Good q) :=
      (h.at l).updLine fun hg => .of_running (hg.legal.enterRunning hs hw) rfl
    exact good_choose (hrun.good.alike (alike_raiseLineNotice l _))
  · exact h

theorem good_completeRecoveryWatch (h : s.Good q) : (completeRecoveryWatch l s).Good q := by
  unfold completeRecoveryWatch
  dsimp only
  split
  · rename_i d hs hw _
    have hreason : (StartCause.recovery == .recovery) = ((s.line l).guard.faultReason != .none) := by
      have := (h l).legal.reason
      simp only [LineGuard.reasonFits, hs] at this
      simp [this]
    have hstart : (s.updLine l fun b => b.enterStarting .recovery).At q l (LineBlock.Good q) :=
      (h.at l).updLine fun hg => .of_legal (hg.legal.enterStarting
        (count := (s.line l).guard.recoveryCount) (.inr (.inr hs)) hreason) (nomatch ·) (nomatch ·)
    exact hstart.good.alike (alike_raiseLineNotice l _)
  · exact h

theorem good_spoilQuiet (h : s.Good q) (hp : q → PoolOk s) : (spoilQuiet l s).Good q := by
  unfold spoilQuiet
  dsimp only
  split
  · exact good_enterFaulted_of_good h (fun hq => (hp hq).carriesOwn l) (nomatch ·)
  · exact h

theorem good_stickDominant (h : s.Good q) (hp : q → PoolOk s) : (stickDominant l s).Good q := by
  unfold stickDominant
  dsimp only
  split
  · exact good_enterFaulted_of_good h (fun hq => (hp hq).carriesOwn l) (nomatch ·)
  · exact h

theorem good_spoilRecoveryWatch (h : s.Good q) (hp : q → PoolOk s) :
    (spoilRecoveryWatch l s).Good q := by
  unfold spoilRecoveryWatch
  dsimp only
  split
  · exact good_enterFaulted_of_good h (fun hq => (hp hq).carriesOwn l) (nomatch ·)
  · exact h

/-! ### The fault hold ends (R123) -/

/-- What a FAULTED line has: nothing on the wire, no run, a reason (R122). -/
theorem LineBlock.Legal.faulted {b : LineBlock} (h : b.Legal) (hs : b.guard.lineState = .faulted) :
    b.engine.unfixed = none ∧ b.discovery.active = false ∧ b.scheduler.running = false ∧
      b.scheduler.floor = .stopped ∧ b.scheduler.stepInProgress = false ∧
      b.discovery.stopPending = .none ∧ b.guard.faultReason ≠ .none ∧ b.guard.stuckRun = none ∧
      b.pins.de = false ∧ b.pins.tx = .rest := by
  have hwatched : b.guard.lineState.watched = false := by rw [hs]; rfl
  have hstep := h.stepInProgress_of_not_watched hwatched
  have hfixed : b.engine.isFixed = true := by simpa [hs, LineState.engineFits] using h.engine
  have hde : b.pins.de = false := by
    by_contra hd
    rcases h.driver (by simpa using hd) with h' | h'
    · cases he : b.engine <;> simp_all [Engine.isFixed, Engine.isSending]
    · have := h.watch
      cases hw : b.guard.watch <;> simp_all [LineState.watchFits, Watch.isWakeBreak]
  refine ⟨?_, ?_, ?_, h.floor.2 (by simp [hs]), hstep, ?_, ?_, ?_, hde, ?_⟩
  · cases he : b.engine <;> simp_all [Engine.isFixed, Engine.unfixed]
  · by_contra ha
    rcases h.active (by simpa using ha) with h' | ⟨h', -⟩ <;> simp [hs] at h'
  · by_contra hr
    simpa [hs] using h.running.1 (by simpa using hr)
  · by_contra hp
    exact absurd (hstep.symm.trans (h.stopPending hp)) (by decide)
  · simpa [LineGuard.reasonFits, hs] using h.reason
  · by_contra hr
    exact absurd (hwatched.symm.trans (h.stuckRun (Option.isSome_iff_ne_none.2 hr)).1) (by decide)
  · simpa [LineBlock.txExpected, hde] using h.tx

/-- A GUARD cut short leaves the engine IDLE where no outcome waits. -/
theorem cutGuard_line {s : State} {l : Line} (h : (s.line l).engine.unfixed = none) :
    Alike (s.setLine l { s.line l with engine := .idle }) (cutGuard l s) := by
  unfold cutGuard
  split
  · exact finishExchange_line ..
  · rename_i hne
    have hidle : (s.line l).engine = .idle := by
      cases he : (s.line l).engine with
      | idle => rfl
      | guard x o d => exact absurd he (hne x o d)
      | sending _ _ _ | awaiting _ _ | receiving _ _ _ => rw [he] at h; cases h
    rw [← hidle, State.setLine_line]
    exact .refl s

/-- The line of a hold that has ended: FAULTED and good, its engine IDLE. -/
def LineBlock.Held (b : LineBlock) : Prop :=
  b.Legal ∧ b.guard.lineState = .faulted ∧ b.engine = .idle

theorem LineBlock.Held.like {new old : LineBlock} (h : new.Like old) (ho : old.Held) : new.Held :=
  ⟨ho.1.of_outline h.outline, (LineBlock.lineState_of_outline h.outline).trans ho.2.1,
    (LineBlock.engine_of_outline h.outline).trans ho.2.2⟩

theorem LineBlock.Legal.held {b : LineBlock} (h : b.Legal) (hs : b.guard.lineState = .faulted) :
    LineBlock.Held { b with engine := .idle } := by
  obtain ⟨-, -, -, -, hstep, -, -, -, hde, htx⟩ := h.faulted hs
  exact ⟨{ h with
    engine := by simp [hs, LineState.engineFits, Engine.isFixed]
    driver := fun hd => absurd (hde.symm.trans hd) (by decide)
    echo := rfl
    tx := by simp [LineBlock.txExpected, hde, htx]
    busy := fun h' => absurd (hstep.symm.trans h') (by decide) }, hs, rfl⟩

theorem LineBlock.Stopped.legal {b : LineBlock} (h : b.Stopped) (hs : b.Sane)
    (ha : b.discovery.active = false) : b.Legal := by
  have hsame : b.afterRunBlock .done = b := by
    simp [LineBlock.afterRunBlock, Machine.afterRun, ha]
  rw [← hsame]
  exact h.afterRun hs .done

/-- Every QUEUED record of a line that has stopped completes, and the line is good. -/
theorem at_abortQueued {P : LineBlock → Prop} (h : s.At q l P)
    (hP : ∀ {b b'}, LineBlock.Like b' b → P b → P b') :
    (abortQueued l s).1.At q l fun b => P b ∧ b.Empty := by
  have ha := h.alike (alike_completeQueued l (fun _ => true) .aborted s) hP
  exact ⟨⟨ha.1, empty_abortQueued l s⟩, ha.2⟩

theorem good_finishStop (h : s.At q l LineBlock.Held) : (finishStop l s).Good q := by
  have hdown : (s.updLine l LineBlock.goDown).At q l LineBlock.Legal := h.updLine fun hb => by
    obtain ⟨hlegal, hs, he⟩ := hb
    exact (LineBlock.Stopped.goDown he).legal hlegal.sane.goDown (hlegal.faulted hs).2.1
  have habort := at_abortQueued hdown fun hlike => LineBlock.Legal.of_outline hlike.outline
  have hgood : (abortQueued l (s.updLine l LineBlock.goDown)).1.Good q :=
    State.At.good (habort.mono fun ⟨hb, he⟩ => ⟨hb, fun _ _ => he⟩)
  exact hgood.alike (alike_raiseLineNotice l _)

theorem LineBlock.Held.enterRecovering {b : LineBlock} (h : b.Held)
    (ha : b.guard.stopAfterHold = false) : b.enterRecovering.Legal := by
  obtain ⟨hlegal, hs, he⟩ := h
  obtain ⟨-, hactive, hrunning, hfloor, hstep, hpending, hreason, hstuck, hde, htx⟩ :=
    hlegal.faulted hs
  exact {
    engine := by simp [LineBlock.enterRecovering, he, LineState.engineFits]
    watch := rfl
    reason := by simpa [LineBlock.enterRecovering, LineGuard.reasonFits] using hreason
    running := iff_of_false (by simp [LineBlock.enterRecovering, hrunning]) (nomatch ·)
    floor := iff_of_true hfloor (nomatch ·)
    driver := fun hd => absurd (hde.symm.trans hd) (by decide)
    wakeBreak := (nomatch ·)
    echo := by simp [LineBlock.enterRecovering, he, Engine.echoFits]
    tx := by simp [LineBlock.enterRecovering, LineBlock.txExpected, hde, htx]
    hold := iff_of_false (nomatch ·) (nomatch ·)
    stopAfterHold := fun h' => absurd (ha.symm.trans h') (by decide)
    stuckRun := fun h' => absurd (hstuck ▸ h' : Option.isSome (none : Timer) = true) (by decide)
    step := fun h' => absurd (hstep.symm.trans h') (by decide)
    active := fun h' => absurd (hactive.symm.trans h') (by decide)
    stopPending := fun h' => absurd hpending h'
    contention := ⟨hlegal.contention.1, fun h' => h'.elim (nomatch ·) (nomatch ·)⟩
    walk := hlegal.walk
    interleave := hlegal.interleave
    params := hlegal.params
    busy := fun h' => absurd (hstep.symm.trans h') (by decide) }

theorem good_beginRecovery (h : s.At q l LineBlock.Held)
    (ha : (s.line l).guard.stopAfterHold = false) : (beginRecovery l s).Good q := by
  have hwatch : (s.updLine l LineBlock.enterRecovering).At q l (LineBlock.Good q) :=
    h.updLine fun hb => .of_legal (hb.enterRecovering ha) (nomatch ·) (nomatch ·)
  have hnote := hwatch.good.alike (alike_raiseLineNotice l _)
  unfold beginRecovery
  dsimp only
  split
  · have hidle : ((raiseLineNotice l (s.updLine l LineBlock.enterRecovering)).line l).engine.unfixed =
        none := by
      have he : (s.line l).engine = .idle := h.1.2.2
      simp [raiseLineNotice_eq, State.updLine_eq, LineBlock.enterRecovering, he, Engine.unfixed]
    exact good_enterFaulted_of_good hnote (fun _ => .of_fixed hidle) (nomatch ·)
  · exact hnote

theorem good_expireHold (h : s.Good q) : (expireHold l s).Good q := by
  unfold expireHold
  dsimp only
  split
  · rename_i hhold
    simp only [Bool.and_eq_true, beq_iff_eq] at hhold
    have hs := hhold.1
    have hcut := cutGuard_line ((h l).legal.faulted hs).1
    have hheld : (cutGuard l s).At q l LineBlock.Held :=
      ((h.at l).setLine ((h l).legal.held hs)).alike hcut LineBlock.Held.like
    split
    · exact good_finishStop hheld
    · rename_i hafter
      refine good_beginRecovery hheld ?_
      have hsame := congrArg (fun b => b.guard.stopAfterHold) (hcut.like l).outline
      simp only [LineBlock.outline, State.line_setLine_self] at hsame
      rw [hsame]
      simpa using hafter
  · exact h

/-! ### Requests on lines -/

theorem good_requestConfigureLine (h : s.Good q) (body : List Byte) :
    (requestConfigureLine body s).1.Good q := by
  unfold requestConfigureLine
  split
  · split
    · exact h
    · dsimp only
      split
      · exact h
      · split
        · rename_i hp
          exact State.At.good ((h.at _).updLine fun hg => ⟨{ hg.legal with params := hp }, hg.empty⟩)
        · exact h
  · exact h

theorem good_requestQueryLine (h : s.Good q) (body : List Byte) :
    (requestQueryLine body s).1.Good q := by
  unfold requestQueryLine
  split
  · split
    · rw [accept_fst]
      split
      · exact h.alike (alike_updCounters ..)
      · exact h
    · exact h
  · exact h

theorem alike_resetEntries (l : Line) (s : State) : Alike s (resetEntries l s).1 := by
  have hfold (chosen : List EntryIndex) (t : State) : Alike t
      (chosen.foldl (fun t i => t.setNode i (t.node i).lineStarted) t) := by
    induction chosen generalizing t with
    | nil => exact .refl t
    | cons i rest ih => exact (alike_setNode ..).trans (ih _)
  exact hfold _ s

theorem good_requestStartLine (h : s.Good q) (body : List Byte) :
    (requestStartLine body s).1.Good q := by
  refine withLine_fst h fun l => ?_
  split
  · exact h
  · rename_i hs
    have hdown : (s.line l).guard.lineState = .down := by simpa using hs
    have hstart : (s.updLine l LineBlock.start).At q l (LineBlock.Good q) :=
      (h.at l).updLine fun hg => .of_legal (hg.legal.enterStarting (.inl hdown) rfl)
        (nomatch ·) (nomatch ·)
    exact hstart.good.alike (alike_resetEntries l _)

/-- A line that goes down at once ends its run. -/
theorem good_stopAtOnce (h : s.Good q) (hx : (s.line l).engine.unfixed = none) :
    (stopAtOnce l s).1.Good q := by
  have hidle : (s.setLine l { s.line l with engine := .idle }).At q l fun b =>
      b.Sane ∧ b.engine = .idle := (h.at l).setLine ⟨{ (h l).legal.sane with }, rfl⟩
  have hcut : (cutGuard l s).At q l fun b => b.Sane ∧ b.engine = .idle :=
    hidle.alike (cutGuard_line hx) fun hl hb =>
      ⟨hb.1.of_outline hl.outline, (LineBlock.engine_of_outline hl.outline).trans hb.2⟩
  have hdown : ((cutGuard l s).updLine l LineBlock.goDown).At q l fun b => b.Sane ∧ b.Stopped :=
    hcut.updLine fun ⟨hs, he⟩ => ⟨hs.goDown, .goDown he⟩
  have habort := at_abortQueued hdown fun hl hb =>
    ⟨hb.1.of_outline hl.outline, LineBlock.Stopped.like hl hb.2⟩
  exact good_endRunPending (habort.mono fun ⟨⟨hs, hstop⟩, he⟩ => hstop.ends hs fun _ => he) _

/-- A line goes from RUNNING to STOPPING with an exchange in flight (R62, R125), and a run of it has a
stop pending or is over (R114). -/
theorem LineBlock.Legal.enterStopping {b : LineBlock} (h : b.Legal)
    (hr : b.guard.lineState = .running) (he : b.engine ≠ .idle) {d : Discovery} {step : Bool}
    (hstep : step = true → d.active = true) (hactive : d.active = true → d.stopPending ≠ .none)
    (hpending : d.stopPending ≠ .none → step = true) :
    LineBlock.Legal { b.enterStopping with
      discovery := d
      scheduler := { b.enterStopping.scheduler with stepInProgress := step } } := by
  have hwatched : b.guard.lineState.watched = true := by rw [hr]; rfl
  have hreason : b.guard.faultReason = .none := h.reason_of_watched hwatched
  have hwatch : b.guard.watch = .stopped := h.watch_of_watched hwatched
  have hlow : b.guard.contentionRun < 3 := h.contention.2 (.inr hwatched)
  have hhold : b.guard.holdTimer = none := by
    by_contra hh
    simpa [hr] using h.hold.1 (Option.isSome_iff_ne_none.2 hh)
  have hafter : b.guard.stopAfterHold = false := by
    by_contra ha
    simpa [hr] using h.stopAfterHold (by simpa using ha)
  exact {
    engine := by simpa [LineBlock.enterStopping, LineState.engineFits] using he
    watch := by simp [LineBlock.enterStopping, hwatch, LineState.watchFits]
    reason := by simp [LineBlock.enterStopping, hreason, LineGuard.reasonFits]
    running := iff_of_false (nomatch ·) (nomatch ·)
    floor := iff_of_true rfl (nomatch ·)
    driver := h.driver
    wakeBreak := h.wakeBreak
    echo := h.echo
    tx := h.tx
    hold := iff_of_false (by simp [LineBlock.enterStopping, hhold]) (nomatch ·)
    stopAfterHold := fun h' => absurd (hafter.symm.trans h') (by decide)
    stuckRun := fun h' => ⟨rfl, (h.stuckRun h').2⟩
    step := fun h' => ⟨hstep h', rfl⟩
    active := fun h' => .inr ⟨rfl, hactive h'⟩
    stopPending := hpending
    contention := ⟨hlow.le, fun _ => hlow⟩
    walk := h.walk
    interleave := h.interleave
    params := h.params
    busy := fun _ => he }

/-- The run of a line that has gone STOPPING (R114). -/
def LineBlock.stopsRun (b : LineBlock) : LineBlock :=
  { b with discovery := if b.discovery.active && b.discovery.stopPending == .none then
      { b.discovery with stopPending := .lineStopped } else b.discovery }

/-- A line gone STOPPING is legal once its run has a stop pending, or has ended. -/
def LineBlock.Stopping (b : LineBlock) : Prop :=
  (b.scheduler.stepInProgress = true → b.stopsRun.Legal) ∧
    (b.scheduler.stepInProgress = false → ∀ r, (b.afterRunBlock r).Legal)

theorem LineBlock.Legal.stopping {b : LineBlock} (h : b.Legal)
    (hr : b.guard.lineState = .running) (he : b.engine ≠ .idle) : b.enterStopping.Stopping := by
  refine ⟨fun hs => ?_, fun hs r => ?_⟩
  · have hstep : b.scheduler.stepInProgress = true := hs
    have hactive := (h.step hstep).1
    refine (h.enterStopping (d := b.stopsRun.discovery) (step := true) hr he (fun _ => ?_)
      (fun _ => ?_) fun _ => rfl).of_outline ?_
    · simp only [LineBlock.stopsRun]
      split <;> exact hactive
    · simp only [LineBlock.stopsRun]
      split
      · exact (nomatch ·)
      · rename_i hp
        simpa [hactive] using hp
    · simp [LineBlock.outline, LineBlock.stopsRun, LineBlock.enterStopping, hstep]
  · have hstep : b.scheduler.stepInProgress = false := hs
    have hnone : (afterRun b.discovery r).stopPending = .none := h.sane.afterRun_stopPending r
    refine (h.enterStopping (d := afterRun b.discovery r) (step := false) hr he (nomatch ·)
      (fun h' => absurd ((afterRun_active _ _).symm.trans h') (by decide))
      (fun h' => absurd hnone h')).of_outline ?_
    have hdone := h.sane.inactive
    cases ha : b.discovery.active <;>
      simp [LineBlock.outline, LineBlock.afterRunBlock, LineBlock.enterStopping, afterRun, hstep, ha]

theorem LineBlock.Stopping.like {new old : LineBlock} (h : new.Like old) (ho : old.Stopping) :
    new.Stopping := by
  have hs : new.scheduler.stepInProgress = old.scheduler.stepInProgress :=
    congrArg (fun b => b.scheduler.stepInProgress) h.outline
  have ha : new.discovery.active = old.discovery.active :=
    congrArg (fun b => b.discovery.active) h.outline
  have hp : new.discovery.stopPending = old.discovery.stopPending :=
    congrArg (fun b => b.discovery.stopPending) h.outline
  refine ⟨fun h' => (ho.1 (hs ▸ h')).of_outline ?_, fun h' r =>
    (ho.2 (hs ▸ h') r).of_outline (h.afterRun r r).outline⟩
  have hrun (b : LineBlock) : b.stopsRun.outline = { b.outline with
      discovery := { b.outline.discovery with
        stopPending := if b.discovery.active && b.discovery.stopPending == .none then .lineStopped
          else b.discovery.stopPending } } := by
    simp only [LineBlock.stopsRun, LineBlock.outline]
    split <;> rfl
  rw [hrun, hrun, h.outline, ha, hp]

theorem good_stopRun (h : s.At q l fun b => b.Stopping ∧ b.Empty) : (stopRun l s).Good q := by
  unfold stopRun
  dsimp only
  split
  · rename_i hs
    have hrun : (s.updDiscovery l fun d =>
        if d.active && d.stopPending == .none then { d with stopPending := .lineStopped } else d).At q l
        (LineBlock.Good q) := h.updLine fun hb => ⟨hb.1.1 hs, fun _ _ => hb.2⟩
    exact hrun.good
  · rename_i hs
    exact good_endRunPending (h.mono fun hb r => ⟨hb.1.2 (by simpa using hs) r, fun _ _ => hb.2⟩) _

theorem good_stopRunning (h : s.Good q) (hr : (s.line l).guard.lineState = .running)
    (he : (s.line l).engine ≠ .idle) : (stopRunning l s).1.Good q := by
  have hstop : (s.updLine l LineBlock.enterStopping).At q l LineBlock.Stopping :=
    (h.at l).updLine fun hg => hg.legal.stopping hr he
  exact good_stopRun (at_abortQueued hstop LineBlock.Stopping.like)

/-- A line in another state than RUNNING and STOPPING has no exchange that waits for its outcome. -/
theorem LineBlock.Legal.unfixed_none {b : LineBlock} (h : b.Legal)
    (hw : b.guard.lineState.watched = false) : b.engine.unfixed = none := by
  by_contra hx
  obtain ⟨x, hx⟩ := Option.ne_none_iff_exists'.1 hx
  exact absurd (hw.symm.trans (h.watched_of_unfixed hx)) (by decide)

theorem good_requestStopLine (h : s.Good q) (body : List Byte) :
    (requestStopLine body s).1.Good q := by
  refine withLine_fst h fun l => ?_
  dsimp only
  split
  · exact h
  · exact h
  · rename_i hr
    split
    · rename_i he
      exact good_stopAtOnce h (by rw [beq_iff_eq.1 he]; rfl)
    · rename_i he
      exact good_stopRunning h hr (by simpa using he)
  · rename_i hs hr
    refine good_stopAtOnce h ((h l).legal.unfixed_none ?_)
    cases hls : (s.line l).guard.lineState <;> simp_all [LineState.watched]

/-! ### RESET_LINE -/

theorem at_abortExchange (h : s.Good q) (hp : q → PoolOk s) :
    (abortExchange l s).1.At q l fun b => b.Sane ∧ b.engine = .idle := by
  unfold abortExchange
  split
  · rename_i x hx
    have halike := alike_finishTarget x.carried s
    have hx' : ((finishTarget x.carried s).line l).engine.unfixed = some x := by
      rw [LineBlock.engine_of_outline (halike.like l).outline]
      exact hx
    have hown : q → (finishTarget x.carried s).CarriesOwn l := fun hq =>
      (PoolOk.of_reaches (reaches_finishTarget x.carried s) (hp hq)).carriesOwn l
    have hgood := h.alike halike
    refine (hgood.at l).fixOutcome hx' hown fun b hb _ => ⟨?_, ?_⟩
    · exact ((hgood l).legal.sane.left (o := .aborted) x (hgood l).legal.contention.1).of_outline hb
    · exact LineBlock.engine_of_outline hb
  · rename_i hx
    have hidle : (s.setLine l { s.line l with engine := .idle }).At q l fun b =>
        b.Sane ∧ b.engine = .idle := (h.at l).setLine ⟨{ (h l).legal.sane with }, rfl⟩
    exact hidle.alike (cutGuard_line hx) fun hl hb =>
      ⟨hb.1.of_outline hl.outline, (LineBlock.engine_of_outline hl.outline).trans hb.2⟩

theorem good_requestResetLine (h : s.Good q) (hp : q → PoolOk s) (body : List Byte) :
    (requestResetLine body s).1.Good q := by
  refine withLine_fst h fun l => ?_
  have habort := at_abortQueued (at_abortExchange (l := l) h hp) fun hl hb =>
    ⟨hb.1.of_outline hl.outline, (LineBlock.engine_of_outline hl.outline).trans hb.2⟩
  have hdown : ((abortQueued l (abortExchange l s).1).1.updLine l LineBlock.resetDown).At q l
      (LineBlock.Ends q) := habort.updLine fun ⟨⟨hs, he⟩, hempty⟩ =>
    (LineBlock.Stopped.resetDown he).ends hs.resetDown fun _ => hempty
  exact good_endRunPending hdown _

/-! ### The other requests -/

theorem good_requestAddNode (h : s.Good q) (body : List Byte) :
    (requestAddNode body s).1.Good q := by
  have hadd (line address pollClass : Byte) (x : Option Identity) :
      (addNode line address pollClass x s).1.Good q := by
    unfold addNode
    split
    · split
      · exact h
      · split
        · exact h
        · split
          · exact h
          · split
            · exact h
            · exact h.alike (alike_setNode ..)
    · exact h
  unfold requestAddNode
  split
  · exact hadd _ _ _ _
  · exact hadd _ _ _ _
  · exact h

theorem good_requestRemoveNode (h : s.Good q) (body : List Byte) :
    (requestRemoveNode body s).1.Good q := by
  refine withHandle_fst h fun x _ => ?_
  have hremoved := h.alike
    (alike_setNode s x.index ((s.node x.index).removed (inFlightTo x.index s)))
  dsimp only
  rw [accept_fst]
  exact hremoved.alike (alike_completeQueued ..)

theorem good_requestSetNode (h : s.Good q) (body : List Byte) :
    (requestSetNode body s).1.Good q := by
  unfold requestSetNode
  split
  · split
    · split
      · exact h
      · split
        · exact h
        · dsimp only
          split
          · exact h
          · exact h.alike (alike_setNode ..)
    · exact h
  · exact h

/-- A record joins a queue of a line that is neither DOWN nor STOPPING (R29). -/
theorem good_queueTail {r : RecordIndex} {x : TransferRecord} (h : s.Good q)
    (hd : (s.line x.line).guard.lineState ≠ .down)
    (hs : (s.line x.line).guard.lineState ≠ .stopping) :
    (queueTail r (s.setRecord r x)).Good q := by
  have hgood := h.alike (alike_setRecord s r x)
  refine State.At.good ((hgood.at _).updLine fun hg => ?_)
  rw [State.record_setRecord_self, State.line_setRecord] at hg ⊢
  split
  · exact .of_legal { hg.legal with } hd hs
  · exact .of_legal { hg.legal with } hd hs

theorem good_submit (h : s.Good q) (x : SubmitFields) : (submit x s).1.Good q := by
  unfold submit
  split
  · exact h
  · exact h
  · rename_i hd hs
    split
    · exact h
    · split
      · exact h
      · split
        · exact h
        · exact good_choose (good_queueTail h hd hs)

theorem good_requestSubmit (h : s.Good q) (body : List Byte) :
    (requestSubmit body s).1.Good q := by
  unfold requestSubmit
  split
  · split
    · exact h
    · split
      · exact h
      · exact good_submit h _
  · exact h

theorem good_requestCancel (h : s.Good q) (body : List Byte) :
    (requestCancel body s).1.Good q := by
  refine withTag_fst h fun r => ?_
  split
  · exact h.alike (alike_completeFromQueue ..)
  · exact h
  · exact h

theorem good_requestDiscover (h : s.Good q) (body : List Byte) :
    (requestDiscover body s).1.Good q := by
  refine withLine_fst h fun l => ?_
  dsimp only
  split
  · exact h
  · split
    · exact h
    · rename_i hr
      have hrunning : (s.line l).guard.lineState = .running := by simpa using hr
      have hstart : (s.updDiscovery l Discovery.started).At q l (LineBlock.Good q) :=
        (h.at l).updLine fun hg => .of_running { hg.legal with
          step := fun _ => ⟨rfl, by rw [hrunning]; rfl⟩
          active := fun _ => .inl hrunning
          stopPending := fun h' => absurd rfl h' } hrunning
      exact good_choose hstart.good

theorem good_requestStopDiscovery (h : s.Good q) (body : List Byte) :
    (requestStopDiscovery body s).1.Good q := by
  refine withLine_fst h fun l => ?_
  dsimp only
  split
  · exact h
  · split
    · rename_i hstep
      have hpending : (s.updDiscovery l fun d => { d with stopPending := .cancelled }).At q l
          (LineBlock.Good q) := (h.at l).updLine fun hg => ⟨{ hg.legal with
        active := fun ha => (hg.legal.active ha).imp_right fun h' => ⟨h'.1, (nomatch ·)⟩
        stopPending := fun _ => hstep }, hg.empty⟩
      exact hpending.good
    · exact good_endRun ((h.at l).mono fun hg => hg.legal.ends hg.empty) _

theorem good_requestCredit (h : s.Good q) (body : List Byte) :
    (requestCredit body s).1.Good q := by
  unfold requestCredit
  split
  · split
    · exact h
    · split
      · exact h
      · dsimp only
        rw [accept_fst]
        exact h.alike (alike_updLink ..)
  · exact h

theorem good_requestResetPart (h : s.Good q) (body : List Byte) :
    (requestResetPart body s).1.Good q := by
  refine withNothing_fst h ?_
  rw [accept_fst]
  exact h.alike (alike_updLink ..)

/-- Whatever a frame asks for, the lines stay good. -/
theorem good_answerTo (h : s.Good q) (hp : q → PoolOk s) (kind : Byte) (body : List Byte) :
    (answerTo kind body s).1.Good q := by
  unfold answerTo
  split
  · exact withNothing_fst h h
  · exact good_requestConfigureLine h body
  · exact good_requestQueryLine h body
  · exact good_requestStartLine h body
  · exact good_requestStopLine h body
  · exact good_requestResetLine h hp body
  · exact good_requestAddNode h body
  · exact good_requestRemoveNode h body
  · exact good_requestSetNode h body
  · exact withHandle_fst h fun _ _ => h
  · exact withLine_fst h fun _ => h
  · exact good_requestSubmit h body
  · exact good_requestCancel h body
  · exact withTag_fst h fun _ => h
  · exact good_requestDiscover h body
  · exact good_requestStopDiscovery h body
  · exact good_requestCredit h body
  · exact good_requestResetPart h body
  · exact h

end

/-! ### The host link and every command -/

section
variable {q : Prop} {s : State}

theorem PoolOk.of_runs {t : State} (h : RunsTo s t) (hs : PoolOk s) : PoolOk t :=
  (poolOk_iff t).2 (Runs.keep poolFits_of_move poolFits_of_linkMove h ((poolOk_iff s).1 hs))

theorem good_offer (h : s.Good q) (kind seq : Byte) {body : List Byte}
    {take : List Byte → State → Answer} (ht : (take body s).1.Good q) :
    (offer kind seq body take s).Good q := by
  unfold offer
  split
  · split
    · exact h.alike (alike_updLink ..)
    · exact ht.alike (alike_updLink ..)
  · exact h.alike (alike_raiseLinkNotice ..)

theorem alike_abandonFrame (s : State) : Alike s (abandonFrame s) :=
  (alike_updLink s _).trans (alike_raiseLinkNotice ..)

theorem good_judgeFrame (h : s.Good q) (hp : q → PoolOk s) (f : InFrame) (check : Word16) :
    (judgeFrame f check s).Good q := by
  unfold judgeFrame
  split
  · split
    · exact good_offer h _ _ (good_answerTo h hp _ _)
    · exact h
  · exact h.alike (alike_raiseLinkNotice ..)

theorem good_takeByte (h : s.Good q) (hp : q → PoolOk s) (b : Byte) : (takeByte b s).Good q := by
  unfold takeByte
  split
  · split
    · exact h.alike (alike_updLink s _)
    · exact h
  · split
    · exact h.alike (alike_abandonFrame s)
    · exact h.alike (alike_updLink s _)
  · exact h.alike (alike_updLink s _)
  · exact h.alike (alike_updLink s _)
  · have hdrop := h.alike (alike_updLink s fun k => { k with parser := .hunt, gapTimer := none })
    exact good_judgeFrame hdrop (fun hq => PoolOk.of_runs (runs_dropFrame s) (hp hq)) _ _

theorem good_receiveByte (h : s.Good q) (hp : q → PoolOk s) (byte : Samples 10) :
    (receiveByte byte s).Good q := by
  by_cases hr : s.link.receiver = .stopLow
  · rwa [receiveByte_stopLow byte hr]
  · have hsearch : (searchStart s).Good q := h.alike (alike_updLink s _)
    rw [receiveByte_decides byte hr, decideByte]
    split
    · exact hsearch
    · split
      · exact good_takeByte hsearch (fun hq => PoolOk.of_runs (runs_searchStart s) (hp hq)) _
      · exact h.alike (alike_updLink s _)

theorem good_endFrame (h : s.Good q) (hp : q → PoolOk s) (check : Samples 10) :
    (endFrame check s).Good q := by
  unfold endFrame
  split
  · exact good_receiveByte h hp check
  · exact h

theorem good_rejectLength (h : s.Good q) (hp : q → PoolOk s) (length : Samples 10) :
    (rejectLength length s).Good q := by
  unfold rejectLength
  split
  · split
    · exact good_receiveByte h hp length
    · exact h
  · exact h

theorem alike_failByte (s : State) : Alike s (failByte s) := by
  unfold failByte
  split
  · exact alike_updLink s _
  · exact (alike_updLink s _).trans (alike_abandonFrame _)

theorem alike_expireHostGap (s : State) : Alike s (expireHostGap s) := by
  unfold expireHostGap
  split
  · exact alike_abandonFrame s
  · exact .refl s

theorem alike_takeBreak (s : State) : Alike s (takeBreak s) := by
  unfold takeBreak searchStart dropFrame
  exact (alike_updLink s _).trans (alike_updLink _ _)

theorem alike_verifyHostStart (s : State) : Alike s (verifyHostStart s) := by
  unfold verifyHostStart
  split
  · exact alike_updLink s _
  · exact .refl s
  · exact .refl s

theorem alike_finishReport (s : State) : Alike s (finishReport s) := by
  unfold finishReport
  split
  · rename_i src _ _
    have hidle : Alike s (idleTransmitter s) := alike_updLink s _
    cases src with
    | completion r => exact hidle.trans (alike_setRecord ..)
    | data k => exact hidle.trans (alike_setSlot ..)
    | node _ | line _ | discovery _ | link => exact hidle
  · exact .refl s

theorem alike_finishAnnounce (s : State) : Alike s (finishAnnounce s) := by
  unfold finishAnnounce
  split
  · exact alike_updLink s _
  · exact .refl s

theorem LineBlock.good_reset (rx : Level) : (LineBlock.reset rx).Good q :=
  ⟨{ engine := rfl
     watch := rfl
     reason := rfl
     running := iff_of_false (nomatch ·) (nomatch ·)
     floor := iff_of_true rfl (nomatch ·)
     driver := (nomatch ·)
     wakeBreak := (nomatch ·)
     echo := rfl
     tx := rfl
     hold := iff_of_false (nomatch ·) (nomatch ·)
     stopAfterHold := (nomatch ·)
     stuckRun := (nomatch ·)
     step := (nomatch ·)
     active := (nomatch ·)
     stopPending := fun h => absurd rfl h
     contention := ⟨Nat.zero_le _, fun _ => Nat.zero_lt_succ _⟩
     walk := Nat.zero_le _
     interleave := Nat.zero_le _
     params := rfl
     busy := (nomatch ·) }, fun _ _ => ⟨rfl, rfl⟩⟩

theorem good_blocksReset (straps : BitVec 2) (pin : ResetPin) (s : State) :
    (blocksReset straps pin s).Good q := fun m => by
  cases m <;> exact LineBlock.good_reset _

theorem good_endReset (cause : ResetCause) (straps : BitVec 2) (s : State) :
    (endReset cause straps s).Good q :=
  (good_blocksReset straps .high s).alike (alike_updLink ..)

theorem good_finishReply (h : s.Good q) (straps : BitVec 2) : (finishReply straps s).Good q := by
  unfold finishReply
  split
  · split
    · exact good_endReset _ _ _
    · exact h.alike ((alike_updLink s _).trans (alike_updLink ..))
  · exact h

/-- An outcome whose lines are good. -/
def GoodAfter (q : Prop) (o : Host.Outcome State Fault Refusal) : Prop :=
  ∀ t, o = .next t → t.Good q

theorem goodAfter_next {t : State} (h : t.Good q) : GoodAfter q (.next t) := by
  rintro _ ⟨⟩
  exact h

theorem goodAfter_outOfReset {f : State → State} (hs : s.Good q) (h : (f s).Good q) :
    GoodAfter q (outOfReset f s) := by
  cases hp : s.resetPin with
  | high => rw [outOfReset_high f hp]; exact goodAfter_next h
  | low b => rw [outOfReset_low f hp]; exact goodAfter_next hs

theorem goodAfter_command {f : State → State} (hs : s.Good q) (h : (f s).Good q) :
    GoodAfter q (command f s) := goodAfter_outOfReset hs (h.alike (alike_arbitrate _))

theorem goodAfter_request {kind seq : Byte} {body : List Byte} {take : List Byte → State → Answer}
    (hs : s.Good q) (h : (take body s).1.Good q) :
    GoodAfter q (command (offer kind seq body take) s) :=
  goodAfter_command hs (good_offer hs kind seq h)

theorem goodAfter_lineLevelChange (h : s.Good q) (l : Line) (level : Level) :
    GoodAfter q (execLineLevelChange l level s) := by
  unfold execLineLevelChange
  split
  · exact goodAfter_next (h.alike (alike_updLine ⟨rfl, id⟩))
  · exact goodAfter_next (good_levelChange h level)

/-- Every command leaves good lines. -/
theorem goodAfter_exec (h : s.Good q) (hp : q → PoolOk s) (c : Instr) : GoodAfter q (exec c s) := by
  cases c with
  | identify seq body => exact goodAfter_request h (withNothing_fst h h)
  | configureLine seq body => exact goodAfter_request h (good_requestConfigureLine h body)
  | queryLine seq body => exact goodAfter_request h (good_requestQueryLine h body)
  | startLine seq body => exact goodAfter_request h (good_requestStartLine h body)
  | stopLine seq body => exact goodAfter_request h (good_requestStopLine h body)
  | resetLine seq body => exact goodAfter_request h (good_requestResetLine h hp body)
  | addNode seq body => exact goodAfter_request h (good_requestAddNode h body)
  | removeNode seq body => exact goodAfter_request h (good_requestRemoveNode h body)
  | setNode seq body => exact goodAfter_request h (good_requestSetNode h body)
  | queryNode seq body => exact goodAfter_request h (withHandle_fst h fun _ _ => h)
  | listNodes seq body => exact goodAfter_request h (withLine_fst h fun _ => h)
  | submit seq body => exact goodAfter_request h (good_requestSubmit h body)
  | cancel seq body => exact goodAfter_request h (good_requestCancel h body)
  | queryTransfer seq body => exact goodAfter_request h (withTag_fst h fun _ => h)
  | discover seq body => exact goodAfter_request h (good_requestDiscover h body)
  | stopDiscovery seq body => exact goodAfter_request h (good_requestStopDiscovery h body)
  | credit seq body => exact goodAfter_request h (good_requestCredit h body)
  | resetPart seq body => exact goodAfter_request h (good_requestResetPart h body)
  | unknownKind kind seq body => exact goodAfter_request h (good_answerTo h hp kind body)
  | hostFrameReceived check => exact goodAfter_command h (good_endFrame h hp check)
  | badFrameLength length => exact goodAfter_command h (good_rejectLength h hp length)
  | byteFramingError => exact goodAfter_command h (h.alike (alike_failByte s))
  | hostGapTimeout => exact goodAfter_command h (h.alike (alike_expireHostGap s))
  | hostBreak => exact goodAfter_outOfReset h (h.alike (alike_takeBreak s))
  | replySent straps => exact goodAfter_command h (good_finishReply h straps)
  | reportSent => exact goodAfter_command h (h.alike (alike_finishReport s))
  | announceSent => exact goodAfter_command h (h.alike (alike_finishAnnounce s))
  | powerOnReset straps =>
    show GoodAfter q (execPowerOnReset straps s)
    unfold execPowerOnReset
    split
    · exact goodAfter_next (good_blocksReset _ _ _)
    · exact goodAfter_next (State.Good.alike (good_endReset _ _ _) (alike_arbitrate _))
  | resetPinLow =>
    show GoodAfter q (execResetPinLow s)
    unfold execResetPinLow
    split
    · exact goodAfter_next h
    · exact goodAfter_next (good_blocksReset _ _ _)
  | resetPinRelease straps =>
    show GoodAfter q (execResetPinRelease straps s)
    unfold execResetPinRelease
    split
    · exact goodAfter_next (State.Good.alike (good_endReset _ _ _) (alike_arbitrate _))
    · exact goodAfter_next h
  | frameSent l => exact goodAfter_command h (good_sendFrame h hp)
  | echoContention l => exact goodAfter_command h (good_contend h hp)
  | lineCharacterReceived l bits => exact goodAfter_command h (good_receiveCharacter h hp bits)
  | falseStart l => exact goodAfter_outOfReset h (good_rejectStart h)
  | replyComplete l bits => exact goodAfter_command h (good_completeReply h hp bits)
  | replyWindowExpiry l => exact goodAfter_command h (good_expireWindow h hp)
  | gapLimitExceeded l => exact goodAfter_command h (good_exceedGap h hp)
  | guardExpiry l => exact goodAfter_command h (good_expireGuard h)
  | deadlineExpiry record => exact goodAfter_command h (good_expireDeadline h record)
  | cycleFloorExpiry l => exact goodAfter_command h (good_elapseFloor h)
  | wakeBreakEnd l => exact goodAfter_command h (good_endWakeBreak h)
  | quietComplete l => exact goodAfter_command h (good_completeQuiet h)
  | dominantInQuiet l => exact goodAfter_command h (good_spoilQuiet h hp)
  | stuckDominant l => exact goodAfter_command h (good_stickDominant h hp)
  | faultHoldExpiry l => exact goodAfter_command h (good_expireHold h)
  | recoveryWatchComplete l => exact goodAfter_command h (good_completeRecoveryWatch h)
  | dominantInRecoveryWatch l => exact goodAfter_command h (good_spoilRecoveryWatch h hp)
  | hostByteReceived byte => exact goodAfter_command h (good_receiveByte h hp byte)
  | hostStartVerified => exact goodAfter_outOfReset h (h.alike (alike_verifyHostStart s))
  | startVerified l noisy => exact goodAfter_outOfReset h (good_verifyStart h noisy)
  | receiverArmed l => exact goodAfter_outOfReset h (good_armReceiver h)
  | lineLevelChange l level => exact goodAfter_lineLevelChange h l level

theorem line_withPending (s : State) (q : List Instr) (l : Line) :
    (s.withPending q).line l = s.line l := by cases l <;> rfl

theorem good_step {t : State} (h : s.Good q) (hp : q → PoolOk s) (ht : step s = .next t) :
    t.Good q := by
  unfold step at ht
  split at ht
  · cases ht; exact h
  · rename_i c rest _
    have hrest : (s.withPending rest).Good q := fun m => by
      rw [line_withPending]
      exact h m
    have hpool : q → PoolOk (s.withPending rest) := fun hq =>
      (poolOk_iff _).2 (poolFits_withPending rest ((poolOk_iff s).1 (hp hq)))
    exact goodAfter_exec hrest hpool c t ht

end

theorem legal_of_linesOk {s : State} (h : LinesOk s) (l : Line) : (s.line l).Legal := by
  obtain ⟨hA, hB, -⟩ := h
  cases l
  · exact (lineOk_iff _).1 hA
  · exact (lineOk_iff _).1 hB

/-- Settles O7: every change of a line is one of those that leave it legal, and a miss run goes up to a
line's miss limit only. -/
theorem lineBlocksStayLegal : Obligations.LineBlocksStayLegal := by
  intro s t hs ht
  have hlegal := legal_of_linesOk hs
  have hgood : s.Good False := fun m => ⟨hlegal m, (nomatch ·)⟩
  have hnext := good_step hgood (nomatch ·) ht
  have hmiss : MissRunsFit s := ⟨fun l => (hlegal l).params, hs.2.2⟩
  exact ⟨(lineOk_iff _).2 (hnext .A).legal, (lineOk_iff _).2 (hnext .B).legal,
    (missRunsFit_step hmiss ht).2⟩

/-- Settles O12: a line comes to DOWN or STOPPING with its records ABORTED, and while it is there none
joins its queues: SUBMIT is refused and what would go back completes (R28, R43). -/
theorem stoppedLinesKeepEmptyQueues : Obligations.StoppedLinesKeepEmptyQueues := by
  intro s t hlines hpool hempty ht l
  have hgood : s.Good True := fun m => ⟨legal_of_linesOk hlines m, fun _ => hempty m⟩
  exact (good_step hgood (fun _ => hpool) ht l).empty trivial

end Sys2Proof.Machine

/-! The values at a reset, the step at the front of the queue, and RESET held low (R187). -/

namespace Sys2Proof.Machine

/-! ### The front of the queue -/

/-- Settles O1: both halves are the two cases of `step`. -/
theorem stepRunsTheFrontCommand : Obligations.StepRunsTheFrontCommand :=
  ⟨fun _ _ _ => rfl, fun s hs => by simp [step, hs]⟩

/-! ### The values at a reset -/

section
variable (straps : BitVec 2) (rxA rxB : Level) (pin : ResetPin) (queue : List Instr)

theorem State.node_blocksReset (i : EntryIndex) :
    (State.blocksReset straps rxA rxB pin queue).node i = .reset := by
  simp [State.node, State.blocksReset, Vector.get]

theorem State.record_blocksReset (r : RecordIndex) :
    (State.blocksReset straps rxA rxB pin queue).record r = .reset := by
  simp [State.record, State.blocksReset, Vector.get]

theorem State.slot_blocksReset (k : SlotIndex) :
    (State.blocksReset straps rxA rxB pin queue).slot k = .reset := by
  simp [State.slot, State.blocksReset, Vector.get]

theorem State.line_blocksReset (l : Line) :
    ∃ rx, (State.blocksReset straps rxA rxB pin queue).line l = .reset rx := by
  cases l <;> exact ⟨_, rfl⟩

end

/-- Settles O3: each block's values are read off its definition. -/
theorem resetLeavesTheStatedValues : Obligations.ResetLeavesTheStatedValues := by
  refine ⟨fun straps rxA rxB pin queue => ⟨fun i => ?_, fun r => ?_, fun k => ?_, fun l => ?_,
    rfl, rfl, rfl, rfl, rfl, rfl, rfl, rfl, rfl⟩, rfl⟩
  · rw [State.node_blocksReset]; rfl
  · rw [State.record_blocksReset]; exact ⟨rfl, rfl⟩
  · rw [State.slot_blocksReset]; rfl
  · obtain ⟨rx, hl⟩ := State.line_blocksReset straps rxA rxB pin queue l
    rw [hl]
    exact ⟨rfl, rfl, rfl, rfl, rfl, rfl, rfl, rfl, rfl⟩

theorem State.node_reset (i : EntryIndex) : State.reset.node i = .reset :=
  State.node_blocksReset 0 .recessive .recessive .high [] i

theorem State.record_reset (r : RecordIndex) : State.reset.record r = .reset :=
  State.record_blocksReset 0 .recessive .recessive .high [] r

theorem State.slot_reset (k : SlotIndex) : State.reset.slot k = .reset :=
  State.slot_blocksReset 0 .recessive .recessive .high [] k

theorem State.line_reset (l : Line) : State.reset.line l = .reset .recessive := by cases l <;> rfl

theorem noticesOk_reset : NoticesOk State.reset := by
  refine ⟨List.nodup_nil, fun i => iff_of_false ?_ (nomatch ·), ?_, ?_, ?_, ?_, ?_⟩
  · rw [State.node_reset]; decide
  all_goals exact iff_of_false (by decide) (nomatch ·)

theorem nodesOk_reset : NodesOk State.reset := by
  refine ⟨fun i j _ hj => ?_, fun i _ => ?_, fun i h => ?_, fun i => ?_⟩ <;>
    simp only [State.node_reset] at *
  · exact absurd hj (by decide)
  · rfl
  · exact absurd h (by decide)
  · decide

theorem linesOk_reset : LinesOk State.reset :=
  ⟨by decide, by decide, fun i => by rw [State.node_reset]; decide⟩

theorem linkOk_reset : LinkOk State.reset :=
  ⟨by decide, rfl, by decide, fun _ => rfl, rfl, rfl⟩

theorem queuesOk_reset (l : Line) : QueuesOk State.reset l := by
  refine ⟨?_, ?_, ?_, ?_, ?_⟩ <;> rw [State.line_reset]
  · exact List.nodup_nil
  · exact List.nodup_nil
  · exact fun r => (nomatch ·)
  · exact fun r => (nomatch ·)
  · exact fun r => (nomatch ·)

theorem poolOk_reset : PoolOk State.reset := by
  have hfree (r : RecordIndex) : (State.reset.record r).state = .free := by
    rw [State.record_reset]; rfl
  refine ⟨List.nodup_nil, queuesOk_reset .A, queuesOk_reset .B, fun r h => ?_, fun r h => ?_,
    fun r => iff_of_false (by simp [hfree]) (not_or.2 ⟨(nomatch ·), (nomatch ·)⟩),
    fun r => (nomatch ·), fun r q h => absurd (hfree r) h⟩
  · simp [hfree] at h
  · simp [hfree] at h

theorem slotsOk_reset : SlotsOk State.reset := by
  have hfree (k : SlotIndex) : (State.reset.slot k).state = .free := by
    rw [State.slot_reset]; rfl
  refine ⟨List.nodup_nil, fun k => (nomatch ·), fun k => (nomatch ·), fun k h => ?_,
    fun k => iff_of_false (by simp [hfree]) (nomatch ·),
    fun k => iff_of_false (by simp [hfree]) (nomatch ·)⟩
  simp [hfree] at h

theorem stacksOk_reset (l : Line) : StackOk (State.reset.line l).discovery ∧
    RunOk (State.reset.line l).discovery ∧ StoppedEmpty (State.reset.line l) := by
  rw [State.line_reset]
  exact ⟨by decide, fun _ => ⟨rfl, rfl, rfl, rfl⟩, fun _ => ⟨rfl, rfl⟩⟩

/-- Settles O4: the tables are empty, the queues are empty and the transmitter is busy. -/
theorem invariantsHoldAtReset : Obligations.InvariantsHoldAtReset :=
  ⟨noticesOk_reset, nodesOk_reset, linesOk_reset, stacksOk_reset, linkOk_reset, poolOk_reset,
    slotsOk_reset⟩

/-! ### The resets (R165, R166, R187) -/

/-- Settles O20: but for the three named, every command is one that reset holds back. -/
theorem heldInResetNothingHappens : Obligations.HeldInResetNothingHappens := by
  intro s b c hlow hpower hrelease hlevel
  cases c with
  | powerOnReset x => exact absurd rfl (hpower x)
  | resetPinRelease x => exact absurd rfl (hrelease x)
  | lineLevelChange l v => exact absurd rfl (hlevel l v)
  | resetPinLow =>
    show execResetPinLow s = .next s
    simp [execResetPinLow, hlow]
  | hostBreak => exact outOfReset_low _ hlow
  | hostStartVerified => exact outOfReset_low _ hlow
  | falseStart l => exact outOfReset_low _ hlow
  | startVerified l noisy => exact outOfReset_low _ hlow
  | receiverArmed l => exact outOfReset_low _ hlow
  | _ => exact command_low _ hlow

/-- Settles O19: each command is one of the model's two resets. -/
theorem resetsRestoreEveryBlock : Obligations.ResetsRestoreEveryBlock := by
  intro s straps
  refine ⟨fun h => ?_, fun h => ?_, fun b h => ?_, fun h => ?_, fun h => ?_, fun seq h hp ht => ?_⟩
  · show execPowerOnReset straps s = _
    simp only [execPowerOnReset, h]; rfl
  · show execResetPinLow s = _
    simp only [execResetPinLow, h]; rfl
  · show execPowerOnReset straps s = _
    simp only [execPowerOnReset, h]; rfl
  · show execResetPinRelease straps s = _
    simp only [execResetPinRelease, h]; rfl
  · show execResetPinRelease straps s = _
    simp only [execResetPinRelease, h]; rfl
  · have hf : finishReply straps s = endReset .request straps s := by
      simp only [finishReply, ht, hp]; rfl
    show command (finishReply straps) s = _
    rw [command_high _ h, hf]; rfl

end Sys2Proof.Machine

/-! Requests in general: the rows of Table 12-1, the inbox and what is refused alike (R161, R162, R166,
R168, R169); CREDIT and RESET_PART (R171, R172). -/

namespace Sys2Proof.Machine

/-! ### The rows of Table 12-1 -/

/-- A request's row offers its kind to the request processor. -/
theorem exec_row (seq : Byte) (body : List Byte) (s : State) :
    ∀ p ∈ requestRows seq body, exec p.2 s = command (offer p.1 seq body (answerTo p.1)) s := by
  simp only [requestRows, List.forall_mem_cons]
  exact ⟨rfl, rfl, rfl, rfl, rfl, rfl, rfl, rfl, rfl, rfl, rfl, rfl, rfl, rfl, rfl, rfl, rfl, rfl,
    nofun⟩

theorem exec_unknownKind (kind seq : Byte) (body : List Byte) (s : State) :
    exec (.unknownKind kind seq body) s = command (offer kind seq body (answerTo kind)) s := rfl

theorem exec_commandOf (kind seq : Byte) (body : List Byte) (s : State) :
    exec (commandOf kind seq body) s = command (offer kind seq body (answerTo kind)) s := by
  unfold commandOf
  split
  · rename_i p hp
    have hkind : p.1 = kind := by simpa using List.find?_some hp
    rw [exec_row seq body s p (List.mem_of_find?_eq_some hp), hkind]
  · rfl

theorem isRequestKind_row (seq : Byte) (body : List Byte) :
    ∀ p ∈ requestRows seq body, isRequestKind p.1 = true := by
  simp only [requestRows, List.forall_mem_cons]
  decide

/-! ### The inbox (R161, R166) -/

theorem offer_overrun (kind seq : Byte) (body : List Byte) (take : List Byte → State → Answer)
    {s : State} (h : s.link.inbox.length = 4) : offer kind seq body take s = overrunInbox seq s := by
  simp [offer, h, Config.inboxEntries]

theorem offer_waits (kind seq : Byte) (body : List Byte) (take : List Byte → State → Answer)
    {s : State} (h : s.link.inbox.length < 4) (hp : s.link.resetPending = true) :
    offer kind seq body take s = joinInbox ⟨kind, seq, body, .waiting⟩ s := by
  simp [offer, h, hp, Config.inboxEntries]

theorem offer_ready (kind seq : Byte) (body : List Byte) (take : List Byte → State → Answer)
    {s : State} (h : Ready s) : offer kind seq body take s =
      joinInbox ⟨kind, seq, body, .ready ⟨answerKind kind, seq, (take body s).2⟩⟩ (take body s).1 := by
  obtain ⟨_, hp, hl⟩ := h
  simp [offer, hl, hp, Config.inboxEntries]

/-- Settles O23: every row, and the unknown kind, is an offer, and an offer to a full inbox is an
overrun. -/
theorem fullInboxDiscardsTheRequest : Obligations.FullInboxDiscardsTheRequest := by
  intro s seq kind body hpin hfull c hc
  have hoffer : ∃ k, exec c s = command (offer k seq body (answerTo k)) s := by
    obtain hrow | hunknown := List.mem_append.1 hc
    · obtain ⟨p, hp, rfl⟩ := List.mem_map.1 hrow
      exact ⟨p.1, exec_row seq body s p hp⟩
    · rw [List.mem_singleton.1 hunknown]
      exact ⟨kind, exec_unknownKind kind seq body s⟩
  obtain ⟨k, hk⟩ := hoffer
  rw [hk, command_high _ hpin, offer_overrun k seq body _ hfull, overrunInbox, raiseLinkNotice_eq]
  rfl

/-! ### Refusals that requests share (R162, R168, R169) -/

theorem answerTo_unknown {kind : Byte} (h : kind = 0 ∨ 0x12 < kind.toNat) (body : List Byte)
    (s : State) : answerTo kind body s = (s, [Status.unknownKind.code, kind]) := by
  have hkind : ∀ n, 1 ≤ n → n ≤ 0x12 → kind.toNat ≠ n := by
    rintro n h1 h2 rfl
    obtain rfl | h := h
    · exact absurd h1 (by decide)
    · omega
  unfold answerTo
  split
  case h_19 => rfl
  all_goals exact absurd ‹_› (hkind _ (by decide) (by decide))

/-- Settles O22: `answerTo` refuses what is not a kind of Table 12-1, under the kind 0xFF. -/
theorem unknownKindIsRefused : Obligations.UnknownKindIsRefused := by
  intro s kind seq body hs hkind
  have hnot : isRequestKind kind = false := by
    obtain rfl | h := hkind
    · rfl
    · simp [isRequestKind, Nat.not_le.2 h]
  rw [exec_unknownKind, command_high _ hs.1, offer_ready _ _ _ _ hs, answerTo_unknown hkind,
    answerKind, hnot]
  rfl

section
variable {body : List Byte} {s : State}

theorem withNothing_badLength (a : Answer) (h : body.length ≠ 0) :
    withNothing body s a = refuse .badLength s := by
  unfold withNothing
  split
  · exact absurd rfl h
  · rfl

theorem withLine_badLength (f : Line → Answer) (h : body.length ≠ 1) :
    withLine body s f = refuse .badLength s := by
  unfold withLine
  split
  · exact absurd rfl h
  · rfl

theorem withLine_badLine (f : Line → Answer) {line : Byte} (h : 1 < line.toNat) :
    withLine [line] s f = refuse .badValue s := by
  simp [withLine, decodeLine_none h]

theorem withLine_line (f : Line → Answer) (l : Line) : withLine [lineCode l] s f = f l := by
  simp [withLine, decodeLine_lineCode]

theorem withHandle_badLength (f : Handle → Answer) (h : body.length ≠ 2) :
    withHandle body s f = refuse .badLength s := by
  unfold withHandle
  split
  · exact absurd rfl h
  · rfl

theorem withTag_badLength (f : RecordIndex → Answer) (h : body.length ≠ 2) :
    withTag body s f = refuse .badLength s := by
  unfold withTag
  split
  · exact absurd rfl h
  · rfl

theorem requestConfigureLine_badLength (h : body.length ≠ 12) :
    requestConfigureLine body s = refuse .badLength s := by
  unfold requestConfigureLine
  split
  · exact absurd rfl h
  · rfl

theorem requestQueryLine_badLength (h : body.length ≠ 2) :
    requestQueryLine body s = refuse .badLength s := by
  unfold requestQueryLine
  split
  · exact absurd rfl h
  · rfl

theorem requestAddNode_badLength (h3 : body.length ≠ 3) (h7 : body.length ≠ 7) :
    requestAddNode body s = refuse .badLength s := by
  unfold requestAddNode
  split
  · exact absurd rfl h3
  · exact absurd rfl h7
  · rfl

theorem requestSetNode_badLength (h : body.length ≠ 4) :
    requestSetNode body s = refuse .badLength s := by
  unfold requestSetNode
  split
  · exact absurd rfl h
  · rfl

theorem requestSubmit_badLength (h : body.length < 10 ∨ 58 < body.length) :
    requestSubmit body s = refuse .badLength s := by
  unfold requestSubmit
  split
  · rename_i payload
    have hlong : Config.payloadMaximum < payload.length := by
      simp only [List.length_cons, Config.payloadMaximum] at h ⊢
      omega
    rw [if_pos hlong]
  · rfl

theorem requestCredit_badLength (h : body.length ≠ 1) :
    requestCredit body s = refuse .badLength s := by
  unfold requestCredit
  split
  · exact absurd rfl h
  · rfl

/-- A body of a length that its kind does not allow (Table 12-3). -/
theorem answerTo_badLength (seq : Byte) : ∀ p ∈ requestRows seq body,
    lengthFits p.1 body.length = false → answerTo p.1 body s = refuse .badLength s := by
  have one : (body.length == 1) = false → body.length ≠ 1 := fun h => by simpa using h
  have two : (body.length == 2) = false → body.length ≠ 2 := fun h => by simpa using h
  have none : (body.length == 0) = false → body.length ≠ 0 := fun h => by simpa using h
  simp only [requestRows, List.forall_mem_cons]
  refine ⟨fun h => withNothing_badLength _ (none h),
    fun h => requestConfigureLine_badLength (by simpa [lengthFits] using h),
    fun h => requestQueryLine_badLength (two h), fun h => withLine_badLength _ (one h),
    fun h => withLine_badLength _ (one h), fun h => withLine_badLength _ (one h), fun h => ?add,
    fun h => withHandle_badLength _ (two h),
    fun h => requestSetNode_badLength (by simpa [lengthFits] using h),
    fun h => withHandle_badLength _ (two h), fun h => withLine_badLength _ (one h), fun h => ?submit,
    fun h => withTag_badLength _ (two h), fun h => withTag_badLength _ (two h),
    fun h => withLine_badLength _ (one h), fun h => withLine_badLength _ (one h),
    fun h => requestCredit_badLength (one h), fun h => withNothing_badLength _ (none h),
    nofun⟩
  case add =>
    have hlen : ¬ (body.length = 3 ∨ body.length = 7) := by simpa [lengthFits] using h
    exact requestAddNode_badLength (fun h => hlen (.inl h)) fun h => hlen (.inr h)
  case submit =>
    have hlen : ¬ (10 ≤ body.length ∧ body.length ≤ 58) := by simpa [lengthFits] using h
    exact requestSubmit_badLength (by omega)

end

/-- A request of one line field that names neither line. -/
theorem answerTo_badLine (seq : Byte) (s : State) {line : Byte} (h : 1 < line.toNat) :
    ∀ p ∈ requestRows seq [line],
      p.1 ∈ ([0x04, 0x05, 0x06, 0x0B, 0x0F, 0x10] : List Byte) →
      answerTo p.1 [line] s = refuse .badValue s := by
  intro p _ hp
  simp only [List.mem_cons, List.not_mem_nil, or_false] at hp
  obtain hp | hp | hp | hp | hp | hp := hp <;> rw [hp] <;> exact withLine_badLine _ h

/-- Settles O21: each row's refusal by `answerTo`, offered to an inbox with room. -/
theorem badLengthAndBadLineAreRefused : Obligations.BadLengthAndBadLineAreRefused := by
  refine fun s seq hs => ⟨fun body p hp h => ?_, fun line hline p hp h => ?_⟩
  · rw [exec_row seq body s p hp]
    exact command_offer_refused _ _ _ _ s .badLength hs (isRequestKind_row seq body p hp)
      (answerTo_badLength seq p hp h)
  · rw [exec_row seq [line] s p hp]
    exact command_offer_refused _ _ _ _ s .badValue hs (isRequestKind_row seq [line] p hp)
      (answerTo_badLine seq s hline p hp h)

/-! ### CREDIT and RESET_PART (R171, R172) -/

/-- Settles O25: the three branches of CREDIT. -/
theorem creditAddsToTheCount : Obligations.CreditAddsToTheCount := by
  refine fun s seq n hs => ⟨fun hn hsum => ?_, fun hbad => ?_⟩
  · refine command_offer_accepted 0x11 seq [n] _ requestCredit s _ hs rfl ?_
    simp only [requestCredit, if_neg hn, if_neg (Nat.not_lt.2 hsum)]
    rfl
  · refine command_offer_refused 0x11 seq [n] requestCredit s .badValue hs rfl ?_
    simp only [requestCredit]
    obtain hn | hsum := hbad
    · rw [if_pos hn]
    · rw [if_pos hsum, ite_self]

/-- Settles O26: the reply at once, then every row's offer only joins the inbox. -/
theorem resetPartMakesRequestsWait : Obligations.ResetPartMakesRequestsWait := by
  refine fun s seq => ⟨fun hs => ?_, fun hpin hpending hroom body p hp => ?_⟩
  · exact command_offer_accepted 0x12 seq [] [] requestResetPart s _ hs rfl rfl
  · rw [exec_row seq body s p hp, command_high _ hpin, offer_waits _ _ _ _ hroom hpending]
    rfl

end Sys2Proof.Machine

/-! The host link's bytes and transmissions (R156 to R166). -/

namespace Sys2Proof.Machine

/-! ### A byte in each state of the parser (R158) -/

section
variable {s : State} {b : Byte}

theorem takeByte_sync (h : s.link.parser = .hunt) (hb : b = 0xC3) :
    takeByte b s = continueFrame .length s := by
  simp [takeByte, h, hb]

theorem takeByte_noSync (h : s.link.parser = .hunt) (hb : b ≠ 0xC3) : takeByte b s = s := by
  simp only [takeByte, h, if_neg hb]

theorem takeByte_badLength (h : s.link.parser = .length) (hb : isBadLength b = true) :
    takeByte b s = abandonFrame s := by
  simp [takeByte, h, hb]

theorem takeByte_length (h : s.link.parser = .length) (hb : isBadLength b = false) :
    takeByte b s = continueFrame (.body ⟨b.toNat, [], crc [b]⟩) s := by
  simp [takeByte, h, hb, crc]

theorem takeByte_body {f : InFrame} (h : s.link.parser = .body f) :
    takeByte b s = continueFrame (afterBodyByte (f.keep b)) s := by
  simp [takeByte, h]

theorem takeByte_firstCheck {f : InFrame} (h : s.link.parser = .check f none) :
    takeByte b s = continueFrame (.check f (some b)) s := by
  simp [takeByte, h]

theorem takeByte_secondCheck {f : InFrame} {low : Byte} (h : s.link.parser = .check f (some low)) :
    takeByte b s = judgeFrame f (word16 low b) (dropFrame s) := by
  simp [takeByte, h]

theorem judgeFrame_good {f : InFrame} {check : Word16} {kind seq : Byte} {body : List Byte}
    (h : check = f.check) (hf : f.bytes = kind :: seq :: body) :
    judgeFrame f check s = offer kind seq body (answerTo kind) s := by
  simp [judgeFrame, h, hf]

theorem judgeFrame_bad {f : InFrame} {check : Word16} (h : check ≠ f.check) :
    judgeFrame f check s =
      raiseLinkNotice (fun n => { n with checkFailures := satInc n.checkFailures }) s := by
  simp [judgeFrame, h]

theorem isBadLength_iff (b : Byte) : isBadLength b = true ↔ b.toNat < 2 ∨ 202 < b.toNat := by
  simp [isBadLength]

theorem isBadLength_eq_false (h : 2 ≤ b.toNat) (h' : b.toNat ≤ 202) : isBadLength b = false := by
  rw [← Bool.not_eq_true, isBadLength_iff]
  omega

theorem abandonFrame_eq (s : State) : abandonFrame s =
    { s with
      link := { s.link with
        parser := .hunt
        gapTimer := none
        notice := { s.link.notice with
          framingFailures := satInc s.link.notice.framingFailures, pending := true } }
      reports := enqueueAll [.link] s.reports } := by
  rw [abandonFrame, raiseLinkNotice_eq]
  rfl

end

/-! ### A byte decided at the receiver (R157) -/

section
variable {s : State} {b : Samples 10}

theorem Samples.startLow_iff : b.startLow = true ↔ b.value.getLsbD 0 = false := by
  simp [Samples.startLow]

theorem Samples.startLow_eq_false : b.startLow = false ↔ b.value.getLsbD 0 = true := by
  simp [Samples.startLow]

theorem receiveByte_startHigh (h : s.link.receiver ≠ .stopLow) (hb : b.value.getLsbD 0 = true) :
    receiveByte b s = searchStart s := by
  rw [receiveByte_decides b h, decideByte_startHigh (Samples.startLow_eq_false.2 hb)]

theorem receiveByte_watches (h : s.link.receiver ≠ .stopLow) (hb : b.value.getLsbD 0 = false)
    (hstop : b.value.getLsbD 9 = false) : receiveByte b s = watchStop s := by
  rw [receiveByte_decides b h, decideByte_stopLow (Samples.startLow_iff.2 hb) hstop]

theorem receiveByte_received (h : s.link.receiver ≠ .stopLow) (hb : b.value.getLsbD 0 = false)
    (hstop : b.value.getLsbD 9 = true) :
    receiveByte b s = takeByte b.byteData (searchStart s) := by
  rw [receiveByte_decides b h, decideByte_received (Samples.startLow_iff.2 hb) hstop]

end

theorem exec_hostByteReceived {s : State} (h : s.resetPin = .high) (b : Samples 10) :
    exec (.hostByteReceived b) s = .next (arbitrate (receiveByte b s)) := command_high _ h

theorem exec_hostFrameReceived {s : State} (h : s.resetPin = .high) (b : Samples 10) :
    exec (.hostFrameReceived b) s = .next (arbitrate (endFrame b s)) := command_high _ h

theorem endFrame_due {s : State} {f : InFrame} {first : Byte}
    (h : s.link.parser = .check f (some first)) (b : Samples 10) :
    endFrame b s = receiveByte b s := by
  simp [endFrame, h]

theorem endFrame_notDue {s : State}
    (h : ∀ (f : InFrame) (first : Byte), s.link.parser ≠ .check f (some first)) (b : Samples 10) :
    endFrame b s = s := by
  unfold endFrame
  split
  · rename_i hp; exact absurd hp (h _ _)
  · rfl

/-- Settles O14: either command takes the second check byte where one is due, and the frame is then
judged. -/
theorem secondCheckByteJudgesTheFrame : Obligations.SecondCheckByteJudgesTheFrame := by
  refine ⟨fun s check hpin h => ?_, fun s f first check c hpin hp hr hstart hstop hc => ?_⟩
  · rw [exec_hostFrameReceived hpin, endFrame_notDue h]
  intro high ended
  have htake : receiveByte check s = judgeFrame f (high ++ first) { s with link := ended } := by
    rw [receiveByte_received hr hstart hstop, takeByte_secondCheck (s := searchStart s) hp]
    rfl
  have hexec : exec c s =
      .next (arbitrate (judgeFrame f (high ++ first) { s with link := ended })) := by
    rw [← htake]
    obtain rfl | rfl : c = .hostFrameReceived check ∨ c = .hostByteReceived check := by
      simpa using hc
    · rw [exec_hostFrameReceived hpin, endFrame_due hp]
    · exact exec_hostByteReceived hpin check
  refine ⟨fun kind seq body hcheck hbytes => ?_, fun hcheck => ?_⟩
  · rw [hexec, judgeFrame_good hcheck hbytes, exec_commandOf]
    exact (command_high (s := { s with link := ended }) _ hpin).symm
  · rw [hexec, judgeFrame_bad hcheck, raiseLinkNotice_eq]
    rfl

/-- Settles O15: the byte is decided, then taken by the state of the parser. -/
theorem receivedByteAdvancesTheParser : Obligations.ReceivedByteAdvancesTheParser := by
  intro s b hpin start data stop k received now
  have hreceived : received = .next (arbitrate (receiveByte b s)) := exec_hostByteReceived hpin b
  refine ⟨fun hr => ?_, fun hr => ⟨fun hstart => ?_, fun hstart hstop => ?_, fun hstart hstop => ?_⟩⟩
  · rw [hreceived, receiveByte_stopLow b hr]
  · rw [hreceived, receiveByte_startHigh hr hstart]; rfl
  · rw [hreceived, receiveByte_watches hr hstart hstop]; rfl
  · have htake : received = .next (arbitrate (takeByte data (searchStart s))) := by
      rw [hreceived, receiveByte_received hr hstart hstop]; rfl
    rw [htake]
    refine ⟨fun hp hd => ?_, fun hp hd => ?_, fun hp hlow hhigh => ?_, fun f hp => ?_, fun f hp => ?_⟩
    · rw [takeByte_sync (s := searchStart s) hp hd]; rfl
    · rw [takeByte_noSync (s := searchStart s) hp hd]; rfl
    · rw [takeByte_length (s := searchStart s) hp (isBadLength_eq_false hlow hhigh)]; rfl
    · rw [takeByte_body (s := searchStart s) hp, afterBodyByte]
      simp only [InFrame.keep, List.length_append, List.length_singleton]
      rfl
    · rw [takeByte_firstCheck (s := searchStart s) hp]; rfl

/-- Settles O16: what abandons a frame is `abandonFrame`, and the others write the link alone. -/
theorem abandonedFramesAreCounted : Obligations.AbandonedFramesAreCounted := by
  intro s hpin abandoned search
  refine ⟨fun b hp hr hstart hstop hbad => ?_, fun hp => ?_, fun hp => ?_, fun hg => ?_,
    outOfReset_high _ hpin, fun hr => ?_, fun hr => ?_⟩
  · have hbad : isBadLength b.byteData = true := (isBadLength_iff _).2 hbad
    have htake : receiveByte b s = abandonFrame (searchStart s) := by
      rw [receiveByte_received hr hstart hstop, takeByte_badLength (s := searchStart s) hp hbad]
    have hreject : rejectLength b s = receiveByte b s := by
      simp [rejectLength, hp, hbad]
    have hrow : exec (.badFrameLength b) s = .next (arbitrate (rejectLength b s)) :=
      command_high _ hpin
    rw [hrow, exec_hostByteReceived hpin, hreject, htake, abandonFrame_eq]
    exact ⟨rfl, rfl⟩
  · have hfail : failByte s = abandonFrame (searchStart s) := by
      unfold failByte
      split
      · rename_i h; exact absurd h hp
      · rfl
    show command failByte s = _
    rw [command_high _ hpin, hfail, abandonFrame_eq]
    rfl
  · show command failByte s = _
    rw [command_high _ hpin, failByte, hp]
    rfl
  · obtain ⟨t, ht⟩ := Option.isSome_iff_exists.1 hg
    show command expireHostGap s = _
    rw [command_high _ hpin, expireHostGap, ht]
    dsimp only
    rw [abandonFrame_eq]
  · show outOfReset verifyHostStart s = _
    rw [outOfReset_high _ hpin, verifyHostStart, hr]
    rfl
  · have hsame : verifyHostStart s = s := by
      unfold verifyHostStart
      split
      · rename_i h; exact absurd h hr
      · rfl
      · rfl
    show outOfReset verifyHostStart s = _
    rw [outOfReset_high _ hpin, hsame]

/-! ### A whole frame on HRX (R158) -/

/-- One byte of `receiveBytes`: its start verified, then its ten bits. -/
def hostByte (o : Host.Outcome State Fault Refusal) (b : Byte) : Host.Outcome State Fault Refusal :=
  andThen (andThen o .hostStartVerified) (.hostByteReceived (.ofByte b))

/-- The state with the parser and the gap timer as given. -/
def State.inFrame (s : State) (p : Parser) (g : Timer) : State :=
  s.updLink fun k => { k with parser := p, gapTimer := g }

theorem continueFrame_eq (p : Parser) (s : State) :
    continueFrame p s = s.inFrame p (some hostGapTime) := rfl

theorem State.inFrame_self {s : State} (hp : s.link.parser = .hunt) (hg : s.link.gapTimer = none) :
    s.inFrame .hunt none = s := by
  simp only [State.inFrame, State.updLink, ← hp, ← hg]

theorem receiveBytes_eq (bytes : List Byte) (s : State) :
    receiveBytes bytes s = bytes.foldl hostByte (.next s) := rfl

section
variable {s : State} {b : Byte}

/-- A start is verified with the receiver in its search. -/
theorem verifyHostStart_search (hr : s.link.receiver = .search) : verifyHostStart s =
    s.updLink fun k => { k with receiver := .byte, gapTimer := none } := by
  rw [verifyHostStart, hr]

/-- The state with a byte's start verified. -/
def State.inByte (s : State) (p : Parser) : State :=
  s.updLink fun k => { k with parser := p, gapTimer := none, receiver := .byte }

theorem verifyHostStart_inFrame (hr : s.link.receiver = .search) (p : Parser) (g : Timer) :
    verifyHostStart (s.inFrame p g) = s.inByte p := verifyHostStart_search (s := s.inFrame p g) hr

theorem searchStart_inByte (hr : s.link.receiver = .search) (p : Parser) :
    searchStart (s.inByte p) = s.inFrame p none := by
  simp only [searchStart, State.inByte, State.inFrame, State.updLink, ← hr]

theorem receiveByte_inByte (hr : s.link.receiver = .search) (p : Parser) :
    receiveByte (.ofByte b) (s.inByte p) = takeByte b (s.inFrame p none) := by
  obtain ⟨hlow, hstop, hdata⟩ := Samples.ofByte_decided b
  have hne : (s.inByte p).link.receiver ≠ .stopLow := by
    show HostReceiver.byte ≠ .stopLow
    decide
  rw [receiveByte_decides _ hne, decideByte_received hlow hstop, hdata, searchStart_inByte hr]

/-- A byte reaches the parser with the gap timer stopped. -/
theorem hostByte_next (hpin : s.resetPin = .high) (hr : s.link.receiver = .search) (p : Parser)
    (g : Timer) :
    hostByte (.next (s.inFrame p g)) b = .next (arbitrate (takeByte b (s.inFrame p none))) := by
  have hstart : andThen (.next (s.inFrame p g)) .hostStartVerified = .next (s.inByte p) := by
    rw [← verifyHostStart_inFrame hr p g]
    exact outOfReset_high (s := s.inFrame p g) _ hpin
  rw [hostByte, hstart, ← receiveByte_inByte hr]
  exact exec_hostByteReceived (s := s.inByte p) hpin _

/-- With an arbiter that has nothing to begin, a frame goes on from byte to byte. -/
theorem hostByte_continues (hpin : s.resetPin = .high) (hr : s.link.receiver = .search)
    (hq : s.Quiet) {p q : Parser} (g : Timer)
    (h : ∀ t : State, t.link.parser = p → takeByte b t = continueFrame q t) :
    hostByte (.next (s.inFrame p g)) b = .next (continueFrame q s) := by
  rw [hostByte_next hpin hr p g, h _ rfl]
  exact congrArg _ (arbitrate_of_quiet (hq.congr rfl rfl rfl rfl rfl))

/-- The bytes of the body up to its length, and the check over them. -/
theorem hostByte_body (hpin : s.resetPin = .high) (hr : s.link.receiver = .search) (hq : s.Quiet)
    (rest : List Byte) (f : InFrame) (hne : rest ≠ [])
    (hlen : f.bytes.length + rest.length = f.length) :
    rest.foldl hostByte (.next (continueFrame (.body f) s)) =
      .next (continueFrame
        (.check ⟨f.length, f.bytes ++ rest, rest.foldl crcByte f.check⟩ none) s) := by
  induction rest generalizing f with
  | nil => exact absurd rfl hne
  | cons b rest ih =>
    rw [List.foldl_cons, continueFrame_eq, hostByte_continues hpin hr hq (q := afterBodyByte (f.keep b)) _
      fun t ht => takeByte_body ht, afterBodyByte]
    have hkeep : (f.keep b).bytes.length = f.bytes.length + 1 := by simp [InFrame.keep]
    have hsame : (f.keep b).length = f.length := rfl
    rw [hkeep, hsame]
    simp only [List.length_cons] at hlen
    cases rest with
    | nil =>
      rw [if_neg (by simp only [List.length_nil] at hlen; omega)]
      rfl
    | cons c rest =>
      rw [if_pos (by simp only [List.length_cons] at hlen; omega),
        ih (f.keep b) (List.cons_ne_nil _ _) (by rw [hkeep, hsame]; omega)]
      simp [InFrame.keep]

end

/-- Settles O13: sync, length, the body byte by byte, the first check byte, and the second, which ends a
good frame in the state it began in. -/
theorem receivedFrameIsItsCommand : Obligations.ReceivedFrameIsItsCommand := by
  intro s kind seq body hpin hr hhunt hgap harb hlen
  have hq : s.Quiet := (quiet_iff s).1 harb
  let length : Byte := BitVec.ofNat 8 (2 + body.length)
  have hlength : length.toNat = 2 + body.length := by
    simp only [length, BitVec.toNat_ofNat]
    omega
  let check : Word16 := crc (length :: kind :: seq :: body)
  have hsync : hostByte (.next s) 0xC3 = .next (continueFrame .length s) := by
    have h := hostByte_continues (b := 0xC3) hpin hr hq none fun t ht => takeByte_sync ht rfl
    rwa [State.inFrame_self hhunt hgap] at h
  have hlen' : hostByte (.next (continueFrame .length s)) length =
      .next (continueFrame (.body ⟨length.toNat, [], crc [length]⟩) s) :=
    hostByte_continues hpin hr hq _ fun t ht =>
      takeByte_length ht (isBadLength_eq_false (by omega) (by omega))
  let f : InFrame := ⟨length.toNat, kind :: seq :: body, check⟩
  have hbody : (kind :: seq :: body).foldl hostByte
      (.next (continueFrame (.body ⟨length.toNat, [], crc [length]⟩) s)) =
      .next (continueFrame (.check f none) s) :=
    hostByte_body hpin hr hq _ _ (List.cons_ne_nil _ _)
      (by simp only [List.length_nil, List.length_cons]; omega)
  have hfirst : hostByte (.next (continueFrame (.check f none) s)) (check.extractLsb' 0 8) =
      .next (continueFrame (.check f (some (check.extractLsb' 0 8))) s) :=
    hostByte_continues hpin hr hq _ fun t ht => takeByte_firstCheck ht
  have hsecond : hostByte (.next (continueFrame (.check f (some (check.extractLsb' 0 8))) s))
      (check.extractLsb' 8 8) = .next (arbitrate (offer kind seq body (answerTo kind) s)) := by
    have hdrop : dropFrame (s.inFrame (.check f (some (check.extractLsb' 0 8))) none) = s :=
      State.inFrame_self hhunt hgap
    rw [continueFrame_eq, hostByte_next hpin hr, takeByte_secondCheck rfl, hdrop,
      judgeFrame_good (word16_le16 check) rfl]
  have hframe : Message.frame ⟨kind, seq, body⟩ =
      0xC3 :: length :: ((kind :: seq :: body) ++ [check.extractLsb' 0 8, check.extractLsb' 8 8]) :=
    rfl
  rw [receiveBytes_eq, hframe, List.foldl_cons, hsync, List.foldl_cons, hlen', List.foldl_append,
    hbody, List.foldl_cons, hfirst, List.foldl_cons, hsecond, List.foldl_nil, exec_commandOf,
    command_high _ hpin]

end Sys2Proof.Machine

/-! The outbound side of the host link: the arbiter's order and the end of a transmission (R46, R98, R148,
R150, R161, R163, R165). -/

namespace Sys2Proof.Machine

/-! ### The arbiter (R163, R148) -/

/-- The oldest READY entry is the first that is READY. -/
theorem takeOldestReady_append {older newer : List InboxEntry} {e : InboxEntry} {m : Message}
    (he : e.state = .ready m) (holder : ∀ o ∈ older, ∀ m' : Message, o.state ≠ .ready m') :
    takeOldestReady (older ++ e :: newer) =
      some (m, older ++ { e with state := .sending m } :: newer) := by
  induction older with
  | nil => simp [takeOldestReady, he]
  | cons o older ih =>
    obtain ⟨ho, holder⟩ := List.forall_mem_cons.1 holder
    rw [List.cons_append, takeOldestReady]
    split
    · rename_i m' hm'; exact absurd hm' (ho m')
    · rw [ih holder]; rfl

theorem takeOldestReady_none {inbox : List InboxEntry}
    (h : ∀ e ∈ inbox, ∀ m : Message, e.state ≠ .ready m) : takeOldestReady inbox = none := by
  cases ht : takeOldestReady inbox with
  | none => rfl
  | some p =>
    obtain ⟨older, e, newer, rfl, hready, _⟩ := takeOldestReady_some (m := p.1) (taken := p.2) ht
    exact absurd hready (h e (List.mem_append_right _ (List.mem_cons_self ..)) _)

/-- A report begins with a credit, the next sequence and its message. -/
theorem beginReport_eq (src : Source) (rest : List Source) (s : State) :
    let u := sourceBegins src { s with reports := rest }
    beginReport src rest s = { u with link := { u.link with
      credits := s.link.credits - 1
      reportSeq := s.link.reportSeq + 1
      transmitter := some (.report src ⟨src.kind, s.link.reportSeq.extractLsb' 0 8,
        le16 s.link.reportSeq ++ reportBody src s⟩) } } := by
  intro u
  obtain ⟨n, hn⟩ := link_sourceBegins src { s with reports := rest }
  simp only [beginReport, reportMessage, State.updLink, u, hn]

/-- Settles O17: the branches of the arbiter, in its order. -/
theorem arbiterChoosesInOrder : Obligations.ArbiterChoosesInOrder := by
  refine fun s => ⟨arbitrate_busy, fun ht => ⟨fun c hc => ?_, fun hc =>
    ⟨fun older newer e m hinbox he holder => ?_, fun hready =>
      ⟨fun hq => ?_, fun src rest hs hn => ?_⟩⟩⟩⟩
  · rw [arbitrate_announce ht hc]; rfl
  · have htake := takeOldestReady_append (newer := newer) he holder
    rw [← hinbox] at htake
    rw [arbitrate_reply ht hc htake]; rfl
  · exact arbitrate_nothing hc (takeOldestReady_none hready) hq
  · rw [arbitrate_report ht hc (takeOldestReady_none hready) hs hn, beginReport_eq]

/-! ### The end of a transmission -/

/-- The entry freed is the first one SENDING. -/
theorem eraseP_isSending {older newer : List InboxEntry} {e : InboxEntry} {m : Message}
    (he : e.state = .sending m) (holder : ∀ o ∈ older, o.state.isSending = false) :
    ((older ++ e :: newer).eraseP fun e => e.state.isSending) = older ++ newer := by
  rw [List.eraseP_append_right _ (fun o ho => by simp [holder o ho]),
    List.eraseP_cons_of_pos (by rw [he]; rfl)]

theorem Message.endsPart_iff (m : Message) : m.endsPart = true ↔ m.kind = 0x92 ∧ m.body = [0] := by
  simp [Message.endsPart, acceptance, replyKind, Status.code]

theorem finishReply_frees {s : State} {m : Message} (straps : BitVec 2)
    (ht : s.link.transmitter = some (.reply m))
    (h : s.link.resetPending = false ∨ m.kind ≠ 0x92 ∨ m.body ≠ [0]) :
    finishReply straps s = freeEntry (idleTransmitter s) := by
  have hnot : ¬ (s.link.resetPending && m.endsPart) = true := by
    rw [Bool.and_eq_true, m.endsPart_iff]
    rintro ⟨hp, hk, hb⟩
    obtain h | h | h := h
    · simp [h] at hp
    · exact h hk
    · exact h hb
  simp only [finishReply, ht, if_neg hnot]

theorem finishReport_frees {s : State} {src : Source} {m : Message}
    (ht : s.link.transmitter = some (.report src m)) :
    finishReport s = freeSource src (idleTransmitter s) := by
  simp only [finishReport, ht]

theorem freeSource_notice {src : Source} (s : State) (hr : ∀ r : RecordIndex, src ≠ .completion r)
    (hk : ∀ k : SlotIndex, src ≠ .data k) : freeSource src s = s := by
  unfold freeSource
  split
  · exact absurd rfl (hr _)
  · exact absurd rfl (hk _)
  · rfl

/-- Settles O18: what each kind of transmission frees as it ends. -/
theorem endedTransmissionFreesItsSource : Obligations.EndedTransmissionFreesItsSource := by
  intro s straps hpin idle
  have hreport : exec .reportSent s = .next (arbitrate (finishReport s)) := command_high _ hpin
  refine ⟨fun m older newer e ht hends hinbox he holder => ?_, fun r m ht => ?_, fun k m ht => ?_,
    fun src m ht hr hk => ?_, fun m ht => ?_⟩
  · have hfree : freeEntry (idleTransmitter s) =
        { s with link := { idle with inbox := older ++ newer } } := by
      rw [← eraseP_isSending (newer := newer) he holder, ← hinbox]
      rfl
    show command (finishReply straps) s = _
    rw [command_high _ hpin, finishReply_frees straps ht hends, hfree]
  · rw [hreport, finishReport_frees ht]; rfl
  · rw [hreport, finishReport_frees ht]; rfl
  · rw [hreport, finishReport_frees ht, freeSource_notice _ hr hk]; rfl
  · show command finishAnnounce s = _
    rw [command_high _ hpin, finishAnnounce, ht]; rfl

end Sys2Proof.Machine

/-! The requests on a line: QUERY_LINE, START_LINE and STOP_LINE (R174 to R176). -/

namespace Sys2Proof.Machine

/-! ### QUERY_LINE (R174) -/

theorem decodeYesNo_none {b : Byte} (h : 1 < b.toNat) : decodeYesNo b = none := by
  unfold decodeYesNo
  split
  · omega
  · omega
  · rfl

theorem requestQueryLine_line (l : Line) (s : State) {clear : Byte} {c : Bool}
    (h : decodeYesNo clear = some c) : requestQueryLine [lineCode l, clear] s =
      accept (if c then s.updCounters l fun _ => .zero else s) (queryLineBody (s.line l)) := by
  simp [requestQueryLine, decodeLine_lineCode, h]

theorem requestQueryLine_badValue {line clear : Byte} (s : State)
    (h : 1 < line.toNat ∨ 1 < clear.toNat) :
    requestQueryLine [line, clear] s = refuse .badValue s := by
  obtain h | h := h
  · simp [requestQueryLine, decodeLine_none h]
  · cases hl : decodeLine line <;> simp [requestQueryLine, hl, decodeYesNo_none h]

/-- Settles O28: the reply is the model's, byte for byte, and the counters are cleared after it. -/
theorem queryLineReadsTheLine : Obligations.QueryLineReadsTheLine := by
  intro s seq clear l hs b p n reply
  have hreply : reply = 0 :: queryLineBody b := by
    simp [reply, queryLineBody, LineParams.bytes, LineCounters.bytes, countByte, yesNo, p, n]
  rw [hreply]
  refine ⟨?_, ?_, fun line hbad => ?_⟩
  · rintro rfl
    exact command_offer_accepted 0x03 seq _ _ requestQueryLine s _ hs rfl
      (requestQueryLine_line (c := false) l s rfl)
  · rintro rfl
    exact command_offer_accepted 0x03 seq _ _ requestQueryLine s _ hs rfl
      (requestQueryLine_line (c := true) l s rfl)
  · exact command_offer_refused 0x03 seq _ requestQueryLine s .badValue hs rfl
      (requestQueryLine_badValue s hbad)

/-! ### Requests of one line field -/

section
variable {kind seq : Byte} {l : Line} {s : State} {f : State → Line → Answer}

theorem command_withLine_refused (hs : Ready s) (hk : isRequestKind kind = true) (st : Status)
    (h : f s l = refuse st s) :
    command (offer kind seq [lineCode l] fun body s => withLine body s (f s)) s =
      .next (answered kind seq [lineCode l] [st.code] s) :=
  command_offer_refused kind seq _ _ s st hs hk ((withLine_line _ l).trans h)

theorem command_withLine_accepted {t : State} {reply : List Byte} (hs : Ready s)
    (hk : isRequestKind kind = true) (h : f s l = accept t reply) :
    command (offer kind seq [lineCode l] fun body s => withLine body s (f s)) s =
      .next (answered kind seq [lineCode l] (0 :: reply) t) :=
  command_offer_accepted kind seq _ reply _ s t hs hk ((withLine_line _ l).trans h)

end

/-! ### START_LINE (R175) -/

/-- Several entries rewritten, each from what it was. -/
theorem foldl_setNode_spec (f : NodeEntry → NodeEntry) (is : List EntryIndex) (hnd : is.Nodup)
    (s : State) :
    let u := is.foldl (fun t i => t.setNode i (f (t.node i))) s
    (∀ i, u.node i = if i ∈ is then f (s.node i) else s.node i) ∧ (∀ m, u.line m = s.line m) ∧
      u.records = s.records ∧ u.slots = s.slots ∧ u.reports = s.reports ∧ u.link = s.link ∧
      u.resetPin = s.resetPin ∧ u.pending = s.pending := by
  induction is generalizing s with
  | nil => simp
  | cons j is ih =>
    obtain ⟨hj, hnd⟩ := List.nodup_cons.1 hnd
    obtain ⟨h1, h2, h3, h4, h5, h6, h7, h8⟩ := ih hnd (s.setNode j (f (s.node j)))
    refine ⟨fun i => ?_, fun m => (h2 m).trans (State.line_setNode ..), h3, h4, h5, h6, h7, h8⟩
    rw [List.foldl_cons, h1]
    by_cases hi : i = j
    · subst hi; simp [hj]
    · simp [State.node_setNode, hi]

theorem resetEntries_spec (l : Line) (s : State) :
    let reset (i : EntryIndex) : Bool := (s.node i).startsWith l
    let u := (resetEntries l s).1
    (resetEntries l s).2 = (entryIndexes.filter reset).length ∧
      (∀ i, u.node i = if reset i then (s.node i).lineStarted else s.node i) ∧
      (∀ m, u.line m = s.line m) ∧ u.records = s.records ∧ u.slots = s.slots ∧
      u.reports = s.reports ∧ u.link = s.link ∧ u.resetPin = s.resetPin ∧
      u.pending = s.pending := by
  intro reset u
  obtain ⟨hnode, hrest⟩ := foldl_setNode_spec NodeEntry.lineStarted (entryIndexes.filter reset)
    ((List.nodup_finRange 64).filter _) s
  exact ⟨rfl, fun i => (hnode i).trans (by simp [entryIndexes]), hrest⟩

/-- Settles O29: the line enters STARTING and its entries are set one by one. -/
theorem startLineResetsTheEntries : Obligations.StartLineResetsTheEntries := by
  intro s seq l hs c reset
  refine ⟨fun hup => ?_, fun hdown => ?_⟩
  · exact command_withLine_refused hs rfl .wrongState (by simp [hup])
  · obtain ⟨hcount, hnode, hline, hrecords, hslots, hreports, hlink, hpin, hpending⟩ :=
      resetEntries_spec l (s.updLine l LineBlock.start)
    simp only [State.updLine_eq, State.node_setLine, State.line_setLine, State.records_setLine,
      State.slots_setLine, State.reports_setLine, State.link_setLine, State.resetPin_setLine,
      State.pending_setLine] at hcount hnode hline hrecords hslots hreports hlink hpin hpending
    refine ⟨_, command_withLine_accepted hs rfl ?_, hnode, (hline l).trans (if_pos rfl),
      (hline _).trans (if_neg (otherLine_ne l)), hrecords, hslots, hreports, hlink, hpin, hpending⟩
    simp only [hdown, bne_self_eq_false, Bool.false_eq_true, if_false, State.updLine_eq, hcount]
    rfl

/-! ### Taking a line DOWN (R43, R114, R125, R127) -/

theorem abortQueued_spec (l : Line) (s : State) :
    let b := s.line l
    let u := (abortQueued l s).1
    (abortQueued l s).2 = b.queued.length ∧
      (∀ q, u.record q = if q ∈ b.queued then completedWith .aborted (s.record q) else s.record q) ∧
      u.line l = { b with urgent := [], normal := [] } ∧
      u.reports = enqueueAll (b.queued.map Source.completion) s.reports ∧ u.nodes = s.nodes ∧
      u.slots = s.slots ∧ KeptOutside l s u := by
  simpa [abortQueued] using completeQueued_spec l (fun _ => true) .aborted s

/-- A line taken DOWN by `f`, its queued records ABORTED and its run ended. -/
theorem takenDown_of_aborted {l : Line} {s t : State} {scheduler : Scheduler}
    (hstep : scheduler.stepInProgress = false)
    (hline : t.line l =
      { (s.line l).goDown with scheduler := scheduler, urgent := [], normal := [] })
    (hrecord : ∀ q, t.record q =
      if q ∈ (s.line l).queued then completedWith .aborted (s.record q) else s.record q)
    (hreports : t.reports = enqueueAll ((s.line l).queued.map Source.completion) s.reports)
    (hnodes : t.nodes = s.nodes) (hslots : t.slots = s.slots) (hkept : KeptOutside l s t) :
    TakenDown l scheduler s (endRunPending l .lineStopped t) := by
  obtain ⟨h1, h2, h3, h4, h5, h6, h7, h8, h9⟩ := endRunPending_spec l .lineStopped t
  obtain ⟨k1, k2, k3, k4⟩ := hkept
  have hd : (t.line l).discovery = (s.line l).discovery := by rw [hline]; rfl
  have hn (i : EntryIndex) : t.node i = s.node i := by simp only [State.node, hnodes]
  have hr (r : RecordIndex) : (endRunPending l .lineStopped t).record r = t.record r := by
    simp only [State.record, h4]
  have hsame : ({ scheduler with stepInProgress := false } : Scheduler) = scheduler := by
    rw [← hstep]
  refine ⟨?_, fun r => (hr r).trans (hrecord r), fun i => ?_, ?_, h5.trans hslots, h6.trans k1,
    h7.trans k2, h8.trans k3, h9.trans k4⟩
  · rw [h1, hline, hsame, ite_self]
    rfl
  · rw [h2, hd, hn]
  · rw [h3, hd, hreports, enqueueAll_append]

theorem cutGuard_idle {l : Line} {s : State} (h : (s.line l).engine = .idle) : cutGuard l s = s := by
  simp [cutGuard, h]

theorem cutGuard_guard {l : Line} {s : State} {x : Exchange} {o : ExchangeOutcome} {d : Duration}
    (h : (s.line l).engine = .guard x o d) : cutGuard l s = finishExchange l x.carried s := by
  simp [cutGuard, h]

theorem keptOutside_setLine (l : Line) (s : State) (b : LineBlock) : KeptOutside l s (s.setLine l b) :=
  ⟨by rw [State.line_setLine, if_neg (otherLine_ne l)], by simp, by simp, by simp⟩

theorem KeptOutside.trans {l : Line} {s t u : State} (h : KeptOutside l s t) (h' : KeptOutside l t u) :
    KeptOutside l s u := by
  obtain ⟨h1, h2, h3, h4⟩ := h
  obtain ⟨k1, k2, k3, k4⟩ := h'
  exact ⟨k1.trans h1, k2.trans h2, k3.trans h3, k4.trans h4⟩

/-- STOP_LINE where the line goes DOWN at once. -/
theorem stopAtOnce_takenDown {l : Line} {s : State} (h : (s.line l).engine = .idle) :
    (stopAtOnce l s).2 = (s.line l).queued.length ∧
      TakenDown l { (s.line l).scheduler with
        running := false, floor := .stopped, stepInProgress := false } s (stopAtOnce l s).1 := by
  obtain ⟨hcount, hrecord, hline, hreports, hnodes, hslots, hkept⟩ :=
    abortQueued_spec l (s.setLine l (s.line l).goDown)
  simp only [State.line_setLine_self, State.record_setLine, State.reports_setLine,
    State.nodes_setLine, State.slots_setLine] at hcount hrecord hline hreports hnodes hslots
  rw [stopAtOnce, cutGuard_idle h, State.updLine_eq]
  exact ⟨hcount, takenDown_of_aborted rfl hline hrecord hreports hnodes hslots
    ((keptOutside_setLine l s _).trans hkept)⟩

theorem stopAtOnce_guard {l : Line} {s : State} {x : Exchange} {o : ExchangeOutcome} {d : Duration}
    (h : (s.line l).engine = .guard x o d) :
    stopAtOnce l s = stopAtOnce l (finishExchange l x.carried s) := by
  have hidle : ((finishExchange l x.carried s).line l).engine = .idle := by
    rw [(finishExchange_spec l x.carried s).1]
  rw [stopAtOnce, stopAtOnce, cutGuard_guard h, cutGuard_idle hidle]

/-- What STOP_LINE makes of a line. -/
def stopLine (s : State) (l : Line) : Answer :=
  match (s.line l).guard.lineState with
  | .down => refuse .wrongState s
  | .stopping => refuse .wrongState s
  | .running =>
    if (s.line l).engine == .idle then
      accept (stopAtOnce l s).1 [countByte (stopAtOnce l s).2, yesNo false]
    else accept (stopRunning l s).1 [countByte (stopRunning l s).2, yesNo true]
  | _ => accept (stopAtOnce l s).1 [countByte (stopAtOnce l s).2, yesNo false]

theorem exec_stopLine (seq : Byte) (body : List Byte) (s : State) : exec (.stopLine seq body) s =
    command (offer 0x05 seq body fun body s => withLine body s (stopLine s)) s := rfl

theorem stopLine_refused {s : State} {l : Line}
    (h : (s.line l).guard.lineState = .down ∨ (s.line l).guard.lineState = .stopping) :
    stopLine s l = refuse .wrongState s := by
  obtain h | h := h <;> simp only [stopLine, h]

theorem stopLine_atOnce {s : State} {l : Line} (hdown : (s.line l).guard.lineState ≠ .down)
    (hstop : (s.line l).guard.lineState ≠ .stopping)
    (h : (s.line l).guard.lineState = .running → (s.line l).engine = .idle) :
    stopLine s l = accept (stopAtOnce l s).1 [countByte (stopAtOnce l s).2, 0] := by
  unfold stopLine
  split
  · rename_i hl; exact absurd hl hdown
  · rename_i hl; exact absurd hl hstop
  · rename_i hl; rw [h hl]; rfl
  · rfl

theorem stopLine_running {s : State} {l : Line} (h : (s.line l).guard.lineState = .running)
    (hbusy : (s.line l).engine ≠ .idle) :
    stopLine s l = accept (stopRunning l s).1 [countByte (stopRunning l s).2, 1] := by
  have hne : ((s.line l).engine == Engine.idle) = false := by simpa using hbusy
  simp only [stopLine, h, hne]
  rfl

theorem Ready.finishExchange {s : State} (h : Ready s) (l : Line) (c : Carried) :
    Ready (finishExchange l c s) := by
  obtain ⟨_, _, _, _, _, _, hlink, hpin, _⟩ := finishExchange_spec l c s
  rw [Ready, hlink, hpin]
  exact h

/-- Settles O30: refused where it does not apply; else the line is taken DOWN, after a GUARD cut short
from the state the cut leaves. -/
theorem stopLineTakesTheLineDown : Obligations.StopLineTakesTheLineDown := by
  intro s seq l hs b c
  refine ⟨fun h => ?_, fun hdown hstop hidle => ?_, fun x o d hfault hguard => ?_⟩
  · exact command_withLine_refused hs rfl .wrongState (stopLine_refused h)
  · obtain ⟨hcount, htaken⟩ := stopAtOnce_takenDown hidle
    have hline := stopLine_atOnce hdown hstop fun _ => hidle
    rw [hcount] at hline
    exact ⟨_, command_withLine_accepted hs rfl hline, htaken⟩
  · have hline := (finishExchange_spec l x.carried s).1
    have hfault' : ((finishExchange l x.carried s).line l).guard.lineState = .faulted := by
      rw [hline]; exact hfault
    have hanswer (t : State) (ht : (t.line l).guard.lineState = .faulted) :=
      stopLine_atOnce (s := t) (l := l) (by rw [ht]; decide) (by rw [ht]; decide)
        fun h => absurd (ht.symm.trans h) (by decide)
    rw [exec_stopLine, exec_stopLine, command_withLine_accepted hs rfl (hanswer s hfault),
      command_withLine_accepted (hs.finishExchange l x.carried) rfl (hanswer _ hfault'),
      stopAtOnce_guard hguard]

/-- The run of a line that goes STOPPING with no step in progress is ended, else it waits. -/
theorem stopRun_step {l : Line} {s : State} (h : (s.line l).scheduler.stepInProgress = true) :
    stopRun l s = s.updDiscovery l fun d =>
      if d.active && d.stopPending == .none then { d with stopPending := .lineStopped } else d := by
  simp [stopRun, h]

theorem stopRun_noStep {l : Line} {s : State} (h : (s.line l).scheduler.stepInProgress = false) :
    stopRun l s = endRunPending l .lineStopped s := by
  simp [stopRun, h]

/-- Settles O31: the queues are ABORTED, and the run is left pending or ended. -/
theorem stopLineLetsTheExchangeRunOn : Obligations.StopLineLetsTheExchangeRunOn := by
  intro s seq l hs b d stepping hrun hbusy
  obtain ⟨hcount, hrecord, hline, hreports, hnodes, hslots, hkept⟩ :=
    abortQueued_spec l (s.setLine l (s.line l).enterStopping)
  simp only [State.line_setLine_self, State.record_setLine, State.reports_setLine,
    State.nodes_setLine, State.slots_setLine] at hcount hrecord hline hreports hnodes hslots
  have hkept := (keptOutside_setLine l s _).trans hkept
  have hqueued : (s.line l).enterStopping.queued = b.queued := rfl
  rw [hqueued] at hcount hreports
  simp only [hqueued] at hrecord
  set t := (abortQueued l (s.setLine l (s.line l).enterStopping)).1 with ht
  have hanswer := stopLine_running hrun hbusy
  have hstop : stopRunning l s = (stopRun l t, b.queued.length) := by
    rw [stopRunning, State.updLine_eq, hcount]
  rw [hstop] at hanswer
  refine ⟨_, command_withLine_accepted hs rfl hanswer, ?_⟩
  have hd : (t.line l).discovery = d := by rw [hline]; rfl
  have hn (i : EntryIndex) : t.node i = s.node i := by simp only [State.node, hnodes]
  have hsched : (t.line l).scheduler.stepInProgress = stepping := by rw [hline]; rfl
  cases hstep : stepping with
  | true =>
    rw [stopRun_step (hsched.trans hstep), State.updDiscovery_eq, hd, hline]
    refine ⟨?_, by simpa using hrecord, by simpa using hn, by simpa using hreports,
      by simpa using hslots, hkept.trans (keptOutside_setLine ..)⟩
    rw [State.line_setLine_self]
    simp only [Bool.and_eq_true, beq_iff_eq, if_true]
    rfl
  | false =>
    rw [stopRun_noStep (hsched.trans hstep)]
    obtain ⟨h1, h2, h3, h4, h5, h6⟩ := endRunPending_spec l .lineStopped t
    have hr (r : RecordIndex) : (endRunPending l .lineStopped t).record r = t.record r := by
      simp only [State.record, h4]
    refine ⟨?_, fun r => (hr r).trans (hrecord r), fun i => ?_, ?_, h5.trans hslots,
      hkept.trans h6⟩
    · have hsame : ({ (t.line l).scheduler with stepInProgress := false } : Scheduler) =
          (t.line l).scheduler := by rw [← hsched.trans hstep]
      rw [h1, hsame, ite_self, hd, hline]
      rfl
    · rw [h2, hd, hn]; rfl
    · rw [h3, hd, hreports, enqueueAll_append]; rfl

end Sys2Proof.Machine

/-! What fixing an outcome does to a line: the owners told, the line's own blocks (R81, R82, Table 4-6),
and RESET_LINE, which fixes ABORTED (R177). -/

namespace Sys2Proof.Machine

/-! ### The slot reserved (R92 to R97, Table 5-3) -/

theorem freeSlot_slot (slot : Option SlotIndex) (s : State) (k : SlotIndex) :
    (freeSlot slot s).slot k = if slot = some k then { s.slot k with state := .free } else s.slot k := by
  cases slot with
  | none => rfl
  | some j =>
    by_cases hk : k = j
    · subst hk; simp [freeSlot]
    · simp [freeSlot, State.slot_setSlot, hk, Ne.symm hk]

theorem keptOutside_rfl (l : Line) (s : State) : KeptOutside l s s := ⟨rfl, rfl, rfl, rfl⟩

theorem keptOutside_setNode (l : Line) (s : State) (i : EntryIndex) (e : NodeEntry) :
    KeptOutside l s (s.setNode i e) := ⟨by simp, rfl, rfl, rfl⟩

theorem keptOutside_setRecord (l : Line) (s : State) (r : RecordIndex) (x : TransferRecord) :
    KeptOutside l s (s.setRecord r x) := ⟨by simp, rfl, rfl, rfl⟩

theorem keptOutside_withReports (l : Line) (s : State) (q : List Source) :
    KeptOutside l s (s.withReports q) := ⟨by simp, rfl, rfl, rfl⟩

theorem keptOutside_setSlot (l : Line) (s : State) (k : SlotIndex) (x : ReceiveSlot) :
    KeptOutside l s (s.setSlot k x) := ⟨by simp, rfl, rfl, rfl⟩

theorem freeSlot_kept (slot : Option SlotIndex) (s : State) :
    (freeSlot slot s).nodes = s.nodes ∧ (freeSlot slot s).records = s.records ∧
      (freeSlot slot s).reports = s.reports ∧ (∀ m, (freeSlot slot s).line m = s.line m) ∧
      ∀ l, KeptOutside l s (freeSlot slot s) := by
  cases slot with
  | none => exact ⟨rfl, rfl, rfl, fun _ => rfl, fun l => keptOutside_rfl l s⟩
  | some k => exact ⟨rfl, rfl, rfl, fun m => State.line_setSlot .., fun l => keptOutside_setSlot ..⟩

/-- A line with its count of duplicates as given. -/
def LineBlock.withDuplicates (b : LineBlock) (n : Word16) : LineBlock :=
  { b with guard := { b.guard with counters := { b.guard.counters with duplicates := n } } }

section
variable (l : Line) (i : EntryIndex) (slot : Option SlotIndex) (f : MasterFrame) {o : ExchangeOutcome}
  {before : NodeEntry} (s : State)

theorem tellStore_free (h : before.removalPending = true ∨
    ∀ (t m : Bool) (p : List Byte), o ≠ .reply (.data t m p)) :
    tellStore l i slot f o before s = freeSlot slot s := by
  unfold tellStore
  split
  · rfl
  · rename_i hr
    obtain h | h := h
    · exact absurd h hr
    · split
      · exact absurd rfl (h _ _ _)
      · rfl

variable {f} {t m : Bool} {p : List Byte} (hr : before.removalPending = false)
include hr

theorem tellStore_late (h : restartedInFlight f before = true) :
    tellStore l i slot f (.reply (.data t m p)) before s = keepAtNode i (freeSlot slot s) := by
  simp [tellStore, hr, h]

variable (hl : restartedInFlight f before = false)
include hl

theorem tellStore_duplicate (h : t = before.acceptedToggle) :
    tellStore l i slot f (.reply (.data t m p)) before s =
      (freeSlot slot s).updCounters l fun c => { c with duplicates := satInc c.duplicates } := by
  simp [tellStore, hr, hl, h]

theorem tellStore_noSlot (h : t ≠ before.acceptedToggle) :
    tellStore l i none f (.reply (.data t m p)) before s = keepAtNode i s := by
  simp [tellStore, hr, hl, h]

theorem tellStore_stored (h : t ≠ before.acceptedToggle) (k : SlotIndex) :
    tellStore l i (some k) f (.reply (.data t m p)) before s = storeData k i t p s := by
  simp [tellStore, hr, hl, h]

end

/-- The store touches no more of a line than its count of duplicates. -/
theorem tellStore_line (l : Line) (i : EntryIndex) (slot : Option SlotIndex) (f : MasterFrame)
    (o : ExchangeOutcome) (before : NodeEntry) (s : State) :
    (∃ n, (tellStore l i slot f o before s).line l = (s.line l).withDuplicates n) ∧
      KeptOutside l s (tellStore l i slot f o before s) := by
  have hsame : ∃ n, s.line l = (s.line l).withDuplicates n := ⟨_, rfl⟩
  obtain ⟨-, -, -, hline, hkept⟩ := freeSlot_kept slot s
  have hfree : (∃ n, (freeSlot slot s).line l = (s.line l).withDuplicates n) ∧
      KeptOutside l s (freeSlot slot s) := ⟨by rwa [hline], hkept l⟩
  have hkeep (t : State) (h : (∃ n, t.line l = (s.line l).withDuplicates n) ∧ KeptOutside l s t) :
      (∃ n, (keepAtNode i t).line l = (s.line l).withDuplicates n) ∧
        KeptOutside l s (keepAtNode i t) :=
    ⟨by rw [keepAtNode, State.line_setNode]; exact h.1, h.2.trans (keptOutside_setNode ..)⟩
  unfold tellStore
  split
  · exact hfree
  · split
    · split
      · exact hkeep _ hfree
      · split
        · rw [State.updCounters_eq, hline]
          exact ⟨⟨_, State.line_setLine_self ..⟩, (hkept l).trans (keptOutside_setLine ..)⟩
        · split
          · rw [storeData, enqueue_withReports]
            exact ⟨by simpa using hsame, by simp [KeptOutside]⟩
          · exact hkeep s ⟨hsame, keptOutside_rfl l s⟩
    · exact hfree

/-! ### The record in flight (Table 2-3) -/

/-- A line with a record at the tail of its queue. -/
def LineBlock.withTail (b : LineBlock) (p : Priority) (r : RecordIndex) : LineBlock :=
  match p with
  | .urgent => { b with urgent := b.urgent ++ [r] }
  | .normal => { b with normal := b.normal ++ [r] }

/-- A line with a record at the head of its queue. -/
def LineBlock.withHead (b : LineBlock) (p : Priority) (r : RecordIndex) : LineBlock :=
  match p with
  | .urgent => { b with urgent := r :: b.urgent }
  | .normal => { b with normal := r :: b.normal }

theorem queueTail_eq (r : RecordIndex) (s : State) : queueTail r s =
    s.setLine (s.record r).line ((s.line (s.record r).line).withTail (s.record r).priority r) := rfl

theorem queueHead_eq (r : RecordIndex) (s : State) : queueHead r s =
    s.setLine (s.record r).line ((s.line (s.record r).line).withHead (s.record r).priority r) := rfl

/-- A line with its queues as given. -/
def LineBlock.withQueues (b : LineBlock) (urgent normal : List RecordIndex) : LineBlock :=
  { b with urgent := urgent, normal := normal }

theorem LineBlock.withTail_queues (b : LineBlock) (p : Priority) (r : RecordIndex) :
    b.withTail p r = b.withQueues (b.withTail p r).urgent (b.withTail p r).normal := by
  cases p <;> rfl

theorem LineBlock.withHead_queues (b : LineBlock) (p : Priority) (r : RecordIndex) :
    b.withHead p r = b.withQueues (b.withHead p r).urgent (b.withHead p r).normal := by
  cases p <;> rfl

/-- A record's disposition touches no more of any line than its queues, and of other lines than the
record's nothing. -/
theorem tellRecord_line (r : RecordIndex) (o : ExchangeOutcome) (gone lost stopping : Bool) (s : State) :
    let u := tellRecord r o gone lost stopping s
    (∀ m, ∃ p q, u.line m = (s.line m).withQueues p q) ∧
      KeptOutside (s.record r).line s u ∧ u.nodes = s.nodes ∧ u.slots = s.slots := by
  have hsame (m : Line) : ∃ p q, s.line m = (s.line m).withQueues p q := ⟨_, _, rfl⟩
  have hput {x : TransferRecord} {b : LineBlock} {p q : List RecordIndex}
      (hb : b = (s.line (s.record r).line).withQueues p q) :
      (∀ m, ∃ p q, (((s.setRecord r x).setLine (s.record r).line b).line m) =
        (s.line m).withQueues p q) ∧
      KeptOutside (s.record r).line s ((s.setRecord r x).setLine (s.record r).line b) ∧
      ((s.setRecord r x).setLine (s.record r).line b).nodes = s.nodes ∧
      ((s.setRecord r x).setLine (s.record r).line b).slots = s.slots := by
    refine ⟨fun m => ?_, (keptOutside_setRecord ..).trans (keptOutside_setLine ..), by simp, by simp⟩
    rw [State.line_setLine, State.line_setRecord]
    split
    · rename_i hm; exact ⟨p, q, hm ▸ hb⟩
    · exact hsame m
  intro u
  simp only [u, tellRecord_eq]
  split
  · exact ⟨fun m => by simpa using hsame m,
      (keptOutside_setRecord ..).trans (keptOutside_withReports ..), rfl, rfl⟩
  · rw [queueTail_eq, State.record_setRecord_self]
    exact hput (by rw [State.line_setRecord]; exact LineBlock.withTail_queues ..)
  · rw [queueHead_eq, State.record_setRecord_self]
    exact hput (by rw [State.line_setRecord]; exact LineBlock.withHead_queues ..)

/-! ### The target, and the records aimed at it -/

theorem keptOutside_tellNode (i : EntryIndex) (f : MasterFrame) (o : ExchangeOutcome) (l : Line)
    (s : State) : KeptOutside l s (tellNode i f o l s).1 := by
  rw [tellNode_eq]
  exact (keptOutside_setNode ..).trans (keptOutside_withReports ..)

theorem tellNode_line (i : EntryIndex) (f : MasterFrame) (o : ExchangeOutcome) (l : Line)
    (s : State) (m : Line) : ((tellNode i f o l s).1.line m) = s.line m := by
  simp [tellNode_eq]

theorem loseTransfers_line (l : Line) (i : EntryIndex) (lost : Bool) (s : State) :
    (∃ p q, (loseTransfers l i lost s).line l = (s.line l).withQueues p q) ∧
      KeptOutside l s (loseTransfers l i lost s) := by
  obtain ⟨-, hline, -, -, -, hkept⟩ := loseTransfers_spec l i lost s
  exact ⟨⟨_, _, hline⟩, hkept⟩

/-! ### The discovery unit -/

/-- A line with its discovery record as given. -/
def LineBlock.withDiscovery (b : LineBlock) (d : Discovery) : LineBlock := { b with discovery := d }

theorem tellInvite_active {l : Line} {s : State} (o : ExchangeOutcome)
    (h : (s.line l).discovery.active = true) : tellInvite l o s =
      s.setLine l ((s.line l).withDiscovery ((s.line l).discovery.inviteOutcome o)) := by
  simp only [tellInvite, h, if_true]; rfl

/-- What discovery's outcomes touch: the record of their line, and the node table with its notices. -/
structure UnitTold (l : Line) (s u : State) : Prop where
  line : ∃ d, u.line l = (s.line l).withDiscovery d
  records : u.records = s.records
  slots : u.slots = s.slots
  kept : KeptOutside l s u

theorem UnitTold.rfl {l : Line} {s : State} : UnitTold l s s := ⟨⟨_, .refl _⟩, .refl _, .refl _, keptOutside_rfl l s⟩

theorem UnitTold.trans {l : Line} {s t u : State} (h : UnitTold l s t) (h' : UnitTold l t u) :
    UnitTold l s u := by
  obtain ⟨d', hd'⟩ := h'.line
  obtain ⟨d, hd⟩ := h.line
  exact ⟨⟨d', by rw [hd', hd]; exact .refl _⟩, h'.records.trans h.records, h'.slots.trans h.slots,
    h.kept.trans h'.kept⟩

theorem unitTold_updDiscovery (l : Line) (f : Discovery → Discovery) (s : State) :
    UnitTold l s (s.updDiscovery l f) := by
  rw [State.updDiscovery_eq]
  exact ⟨⟨_, State.line_setLine_self ..⟩, by simp, by simp, keptOutside_setLine ..⟩

theorem unitTold_setNode (l : Line) (i : EntryIndex) (e : NodeEntry) (s : State) :
    UnitTold l s (s.setNode i e) :=
  ⟨⟨_, State.line_setNode ..⟩, .refl _, .refl _, keptOutside_setNode ..⟩

theorem unitTold_withReports (l : Line) (q : List Source) (s : State) :
    UnitTold l s (s.withReports q) :=
  ⟨⟨_, State.line_withReports ..⟩, .refl _, .refl _, keptOutside_withReports ..⟩

theorem unitTold_raiseNodeNotice (l : Line) (i : EntryIndex) (s : State) :
    UnitTold l s (raiseNodeNotice i s) := by
  rw [raiseNodeNotice_eq]
  exact (unitTold_setNode ..).trans (unitTold_withReports ..)

theorem unitTold_releaseClaim (l : Line) (s : State) : UnitTold l s (releaseClaim l s) := by
  unfold releaseClaim
  split
  · split
    · exact unitTold_setNode ..
    · exact .rfl
  · exact .rfl

theorem unitTold_bindAssignment (l : Line) (a : Assignment) (s : State) :
    UnitTold l s (bindAssignment l a s) := by
  unfold bindAssignment
  dsimp only
  split
  · split
    · exact ((unitTold_setNode ..).trans (unitTold_raiseNodeNotice ..)).trans
        (unitTold_updDiscovery ..)
    · exact .rfl
  · split
    · exact ((unitTold_setNode ..).trans (unitTold_raiseNodeNotice ..)).trans
        (unitTold_updDiscovery ..)
    · exact .rfl

theorem unitTold_failAssignment (l : Line) (a : Assignment) (s : State) :
    UnitTold l s (failAssignment l a s) := by
  unfold failAssignment
  split
  · exact .rfl
  · split
    · exact .rfl
    · exact (unitTold_releaseClaim l s).trans (unitTold_updDiscovery ..)

theorem unitTold_tellAssign (l : Line) (o : ExchangeOutcome) (s : State) :
    UnitTold l s (tellAssign l o s) := by
  unfold tellAssign
  dsimp only
  split
  · split
    · cases o with
      | reply c => exact unitTold_bindAssignment ..
      | noReply | badReply | contention => exact unitTold_failAssignment ..
      | lineFault | aborted | sent => exact .rfl
    · exact .rfl
  · exact .rfl

theorem unitTold_tellInvite (l : Line) (o : ExchangeOutcome) (s : State) :
    UnitTold l s (tellInvite l o s) := by
  unfold tellInvite
  split
  · exact unitTold_updDiscovery ..
  · exact .rfl

/-! ### The owners of an exchange (Table 4-7) -/

section
variable (l : Line) {x : Exchange} (o : ExchangeOutcome) (stopping : Bool) (s : State)

theorem tellOwners_poll {h : Handle} {k : Option SlotIndex} (hc : x.carried = .poll h k) :
    (∃ p q n, (tellOwners l x o stopping s).line l =
      ((s.line l).withQueues p q).withDuplicates n) ∧
      KeptOutside l s (tellOwners l x o stopping s) := by
  simp only [tellOwners, hc]
  set told := tellNode h.index x.frame o l s with htold
  have hnode : told.1.line l = s.line l := tellNode_line ..
  obtain ⟨⟨p, q, hlose⟩, hkept⟩ := loseTransfers_line l h.index told.2 told.1
  obtain ⟨⟨n, hstore⟩, hkept'⟩ := tellStore_line l h.index k x.frame o (s.node h.index)
    (loseTransfers l h.index told.2 told.1)
  exact ⟨⟨p, q, n, by rw [hstore, hlose, hnode]⟩,
    ((keptOutside_tellNode ..).trans hkept).trans hkept'⟩

theorem tellOwners_transfer {r : RecordIndex} {t : Option Handle}
    (hc : x.carried = .transfer r t) :
    (∃ p q, (tellOwners l x o stopping s).line l = (s.line l).withQueues p q) ∧
      ((s.record r).line = l → KeptOutside l s (tellOwners l x o stopping s)) ∧
      (tellOwners l x o stopping s).slots = s.slots := by
  cases t with
  | none =>
    simp only [tellOwners, hc]
    obtain ⟨hline, hkept, -, hslots⟩ := tellRecord_line r o false false stopping s
    exact ⟨hline l, fun hr => hr ▸ hkept, hslots⟩
  | some h =>
    simp only [tellOwners, hc]
    set told := tellNode h.index x.frame o l s with htold
    have hnode : told.1.line l = s.line l := tellNode_line ..
    have hrecord : told.1.record r = s.record r := by simp [htold, tellNode_eq]
    have hslot : told.1.slots = s.slots := by simp [htold, tellNode_eq]
    obtain ⟨hline, hkept, -, hslots⟩ :=
      tellRecord_line r o (s.node h.index).removalPending told.2 stopping told.1
    obtain ⟨-, hlose, -, -, hslots', hkept'⟩ := loseTransfers_spec l h.index told.2
      (tellRecord r o (s.node h.index).removalPending told.2 stopping told.1)
    obtain ⟨p, q, hline⟩ := hline l
    refine ⟨⟨_, _, by rw [hlose, hline, hnode]; rfl⟩, fun hr => ?_, (hslots'.trans hslots).trans hslot⟩
    rw [hrecord, hr] at hkept
    exact ((keptOutside_tellNode ..).trans hkept).trans hkept'

theorem tellOwners_unit (hc : x.carried = .invite ∨ ∃ t : Option Handle, x.carried = .assign t) :
    UnitTold l s (tellOwners l x o stopping s) := by
  obtain hc | ⟨t, hc⟩ := hc
  · simp only [tellOwners, hc]; exact unitTold_tellInvite ..
  · simp only [tellOwners, hc]; exact unitTold_tellAssign ..

/-- Whoever the owners are, a line keeps all but its queues, its discovery record and its duplicates. -/
theorem tellOwners_line : ∃ p q d n, (tellOwners l x o stopping s).line l =
    (((s.line l).withQueues p q).withDiscovery d).withDuplicates n := by
  cases hc : x.carried with
  | poll h k =>
    obtain ⟨⟨p, q, n, h⟩, -⟩ := tellOwners_poll l o stopping s hc
    exact ⟨p, q, _, n, h⟩
  | transfer r t =>
    obtain ⟨⟨p, q, h⟩, -⟩ := tellOwners_transfer l o stopping s hc
    exact ⟨p, q, _, _, h⟩
  | invite =>
    obtain ⟨d, h⟩ := (tellOwners_unit l o stopping s (.inl hc)).line
    exact ⟨_, _, d, _, h⟩
  | assign t =>
    obtain ⟨d, h⟩ := (tellOwners_unit l o stopping s (.inr ⟨t, hc⟩)).line
    exact ⟨_, _, d, _, h⟩

end

/-! ### The line's own side of an outcome (Table 4-6) -/

theorem engineAfter_eq (p : LineParams) (x : Exchange) (o : ExchangeOutcome) : engineAfter p x o =
    if o = .aborted then .idle else .guard x o (p.guardTime.toNat * charTime p) := by
  cases o <;> rfl

theorem contentionRunAfter_eq (o : ExchangeOutcome) (n : Nat) : contentionRunAfter o n = match o with
    | .contention => n + 1
    | .lineFault => n
    | .aborted => n
    | _ => 0 := by
  cases o <;> rfl

theorem countOutcome_eq (o : ExchangeOutcome) (c : LineCounters) : countOutcome o c = { c with
    noReply := if o = .noReply then satInc c.noReply else c.noReply
    badReply := if o = .badReply then satInc c.badReply else c.badReply
    contention := if o = .contention then satInc c.contention else c.contention } := by
  cases o <;> rfl

/-- A fixed outcome: the wire side, then the owners. -/
theorem fixOutcome_left {l : Line} {o : ExchangeOutcome} {s : State} {x : Exchange}
    (h : (s.line l).engine.unfixed = some x) : fixOutcome l o s =
      tellOwners l x o ((s.line l).guard.lineState == .stopping)
        (s.setLine l ((s.line l).left x o)) := by
  rw [fixOutcome_some h, leaveWire_left]

/-- Settles O48: the wire side writes the line, and each owner touches its own blocks. -/
theorem outcomeIsFixedAtTheLine : Obligations.OutcomeIsFixedAtTheLine := by
  intro s l o b g u v
  refine ⟨fun h => fixOutcome_none h, fun x hx hrecord => ?_⟩
  let w := s.setLine l (b.left x o)
  have hu : u = tellOwners l x o (g.lineState == .stopping) w := fixOutcome_left hx
  have hw : w.line l = b.left x o := State.line_setLine_self ..
  have hkept : KeptOutside l s w := keptOutside_setLine ..
  obtain ⟨p, q, d, n, hv⟩ := tellOwners_line l (x := x) o (g.lineState == .stopping) w
  rw [← hu, hw] at hv
  refine ⟨?_, fun hpoll => ?_, fun hinvite hassign => ?_, fun hunit => ?_, ?_⟩
  · show u.line l = _
    simp only [v, hv, LineBlock.left, LineBlock.withQueues, LineBlock.withDiscovery,
      LineBlock.withDuplicates, countOutcome_eq, engineAfter_eq, contentionRunAfter_eq]
    rfl
  · have hdup : (w.line l).guard.counters.duplicates = g.counters.duplicates := by
      rw [hw]; cases o <;> rfl
    have hslots : w.slots = s.slots := State.slots_setLine ..
    cases hc : x.carried with
    | poll h k => exact absurd hc (hpoll h k)
    | transfer r t =>
      obtain ⟨⟨p, q, h⟩, -, hs⟩ := tellOwners_transfer l o (g.lineState == .stopping) w hc
      rw [← hu] at h hs
      exact ⟨by simp only [v, h]; exact hdup, hs.trans hslots⟩
    | invite =>
      have h := tellOwners_unit l o (g.lineState == .stopping) w (.inl hc)
      rw [← hu] at h
      obtain ⟨d, hd⟩ := h.line
      exact ⟨by simp only [v, hd]; exact hdup, h.slots.trans hslots⟩
    | assign t =>
      have h := tellOwners_unit l o (g.lineState == .stopping) w (.inr ⟨t, hc⟩)
      rw [← hu] at h
      obtain ⟨d, hd⟩ := h.line
      exact ⟨by simp only [v, hd]; exact hdup, h.slots.trans hslots⟩
  · have hdisc : (w.line l).discovery = b.discovery := by rw [hw]; rfl
    cases hc : x.carried with
    | poll h k =>
      obtain ⟨⟨p, q, n, h⟩, -⟩ := tellOwners_poll l o (g.lineState == .stopping) w hc
      rw [← hu] at h
      simp only [v, h]; exact hdisc
    | transfer r t =>
      obtain ⟨⟨p, q, h⟩, -⟩ := tellOwners_transfer l o (g.lineState == .stopping) w hc
      rw [← hu] at h
      simp only [v, h]; exact hdisc
    | invite => exact absurd hc hinvite
    | assign t => exact absurd hc (hassign t)
  · have h := tellOwners_unit l o (g.lineState == .stopping) w hunit
    rw [← hu] at h
    obtain ⟨d, hd⟩ := h.line
    have hurgent : (w.line l).urgent = b.urgent := by rw [hw]; rfl
    have hnormal : (w.line l).normal = b.normal := by rw [hw]; rfl
    refine ⟨?_, ?_, h.records.trans (State.records_setLine ..)⟩
    · simp only [v, hd]; exact hurgent
    · simp only [v, hd]; exact hnormal
  · show KeptOutside l s u
    rw [hu]
    refine hkept.trans ?_
    cases hc : x.carried with
    | poll h k => exact (tellOwners_poll l o (g.lineState == .stopping) w hc).2
    | transfer r t =>
      have hr : (w.record r).line = l := by
        rw [State.record_setLine]; exact hrecord r (by rw [hc]; rfl)
      exact (tellOwners_transfer l o (g.lineState == .stopping) w hc).2.1 hr
    | invite => exact (tellOwners_unit l o (g.lineState == .stopping) w (.inl hc)).kept
    | assign t => exact (tellOwners_unit l o (g.lineState == .stopping) w (.inr ⟨t, hc⟩)).kept

/-! ### RESET_LINE (R177) -/

/-- What RESET_LINE makes of a line. -/
def resetLine (s : State) (l : Line) : Answer :=
  let x := abortExchange l s
  let r := abortQueued l x.1
  accept (endRunPending l .lineStopped (r.1.updLine l LineBlock.resetDown)) [countByte (x.2 + r.2)]

theorem abortExchange_unfixed {l : Line} {s : State} {x : Exchange}
    (h : (s.line l).engine.unfixed = some x) : abortExchange l s =
      (fixOutcome l .aborted (finishTarget x.carried s),
        if x.carried.record.isSome then 1 else 0) := by
  simp only [abortExchange, h]
  cases x.carried <;> rfl

theorem abortExchange_fixed {l : Line} {s : State} (h : (s.line l).engine.unfixed = none) :
    abortExchange l s = (cutGuard l s, 0) := by
  simp [abortExchange, h]

/-- The line taken DOWN from the state that its exchange's end leaves. -/
theorem abortedDown_takenDown (l : Line) (v : State) :
    TakenDown l ⟨false, (v.line l).scheduler.cycle, 0, 0, .stopped, false, false⟩ v
      (endRunPending l .lineStopped ((abortQueued l v).1.updLine l LineBlock.resetDown)) := by
  obtain ⟨hcount, hrecord, hline, hreports, hnodes, hslots, hkept⟩ := abortQueued_spec l v
  rw [State.updLine_eq, hline]
  exact takenDown_of_aborted rfl (State.line_setLine_self ..) (by simpa using hrecord)
    (by simpa using hreports) (by simpa using hnodes) (by simpa using hslots)
    (hkept.trans (keptOutside_setLine ..))

theorem scheduler_fixOutcome (l : Line) (o : ExchangeOutcome) (s : State) :
    ((fixOutcome l o s).line l).scheduler = (s.line l).scheduler := by
  cases h : (s.line l).engine.unfixed with
  | none => rw [fixOutcome_none h]
  | some x =>
    rw [fixOutcome_left h]
    obtain ⟨p, q, d, n, hline⟩ := tellOwners_line l (x := x) o
      ((s.line l).guard.lineState == .stopping) (s.setLine l ((s.line l).left x o))
    rw [hline, State.line_setLine_self]
    rfl

theorem line_finishTarget (l : Line) (c : Carried) (s : State) :
    (finishTarget c s).line l = s.line l := by
  unfold finishTarget completeRemoval
  split
  · dsimp only
    split
    · simp [raiseNodeNotice_eq]
    · rfl
  · rfl

/-- Settles O32: the exchange's end, then the line taken DOWN from there. -/
theorem resetLineTakesTheLineDown : Obligations.ResetLineTakesTheLineDown := by
  intro s seq l hs scheduler done
  have hdone {v : State} {n : Nat} (hx : abortExchange l s = (v, n))
      (hcycle : (v.line l).scheduler.cycle = (s.line l).scheduler.cycle) : done v n := by
    have htaken := abortedDown_takenDown l v
    rw [hcycle] at htaken
    refine ⟨_, command_withLine_accepted (f := resetLine) hs rfl ?_, htaken⟩
    simp only [resetLine, hx, (abortQueued_spec l v).1]
    rfl
  refine ⟨fun hidle => ?_, fun x o d hguard => ?_, fun x hx => ?_⟩
  · refine hdone ?_ rfl
    rw [abortExchange_fixed (by rw [hidle]; rfl), cutGuard_idle hidle]
  · refine hdone ?_ (by rw [(finishExchange_spec l x.carried s).1])
    rw [abortExchange_fixed (by rw [hguard]; rfl), cutGuard_guard hguard]
  · refine hdone (abortExchange_unfixed hx) ?_
    rw [scheduler_fixOutcome]
    rw [line_finishTarget]

end Sys2Proof.Machine

/-! Requests on nodes: handles and their numbers, REMOVE_NODE, QUERY_NODE and LIST_NODES (R2, R179,
R181). -/

namespace Sys2Proof.Machine

/-! ### Handles and their numbers (R2, R185) -/

theorem Handle.number_toNat (h : Handle) :
    h.number.toNat = h.index.val + 64 * h.generation.toNat := by
  have hi := h.index.isLt
  have hg := h.generation.isLt
  rw [Handle.number, BitVec.toNat_ofNat]
  omega

theorem decodeHandle_number (h : Handle) : decodeHandle h.number = some h := by
  have hi := h.index.isLt
  have hg := h.generation.isLt
  have hindex : h.number.toNat % 64 = h.index.val := by rw [h.number_toNat]; omega
  have hgeneration : h.number.toNat / 64 = h.generation.toNat := by rw [h.number_toNat]; omega
  have hsmall : h.number.toNat < 1024 := by rw [h.number_toNat]; omega
  simp only [decodeHandle, if_pos hsmall, hindex, hgeneration, BitVec.ofNat_toNat,
    BitVec.setWidth_eq]

theorem decodeHandle_none {w : Word16} (h : 1023 < w.toNat) : decodeHandle w = none := by
  rw [decodeHandle, if_neg (by omega)]

theorem number_of_decodeHandle {w : Word16} {h : Handle} (hd : decodeHandle w = some h) :
    h.number = w := by
  unfold decodeHandle at hd
  split at hd
  · rename_i hw
    cases hd
    apply BitVec.eq_of_toNat_eq
    show _ % 65536 = _
    simp only [BitVec.toNat_ofNat]
    omega
  · cases hd

/-- Settles O33: number and index, both ways by arithmetic. -/
theorem handleNumbersNameEntries : Obligations.HandleNumbersNameEntries :=
  ⟨fun h => ⟨h.number_toNat, decodeHandle_number h⟩, fun _ => decodeHandle_none⟩

/-! ### Requests of one handle field -/

section
variable {b0 b1 : Byte} {s : State} (f : Handle → Answer)

theorem withHandle_stale (h : ∀ x : Handle, decodeHandle (b1 ++ b0) = some x → isStale x s = true) :
    withHandle [b0, b1] s f = refuse .staleHandle s := by
  have hl : lookupHandle (word16 b0 b1) s = none := lookupHandle_none h
  simp [withHandle, hl]

theorem withHandle_current {h : Handle} (hd : decodeHandle (b1 ++ b0) = some h)
    (hs : isStale h s = false) : withHandle [b0, b1] s f = f h := by
  have hl : lookupHandle (word16 b0 b1) s = some h := lookupHandle_some hd hs
  simp [withHandle, hl]

end

/-! ### REMOVE_NODE (R179) -/

/-- Settles O35: the entry is rewritten, then the queued records aimed at it complete. -/
theorem removeNodeFreesTheEntry : Obligations.RemoveNodeFreesTheEntry := by
  intro s seq b0 b1 hs c
  refine ⟨fun hstale => ?_, fun h hd hcurrent => ?_⟩
  · exact command_offer_refused 0x08 seq [b0, b1] requestRemoveNode s .staleHandle hs rfl
      (withHandle_stale _ hstale)
  intro e b flying aimed stays
  obtain ⟨hcount, hrecord, hline, hreports, hnodes, hslots, hkept⟩ :=
    completeQueued_spec e.line (fun x => x.aimedAt h.index) .nodeGone
      (s.setNode h.index (e.removed flying))
  simp only [State.line_setNode, State.record_setNode, State.reports_setNode,
    State.slots_setNode] at hcount hrecord hline hreports hslots
  refine ⟨_, command_offer_accepted 0x08 seq [b0, b1] _ requestRemoveNode s _ hs rfl
    ((withHandle_current _ hd hcurrent).trans ?_), fun i => ?_, hrecord, hline, hreports, hslots,
    (keptOutside_setNode ..).trans hkept⟩
  · show accept _ [countByte _, yesNo flying] = accept _ [BitVec.ofNat 8 _, _]
    rw [completeAimedAt, hcount]
    rfl
  · have hnode (t : State) (ht : t.nodes = (s.setNode h.index (e.removed flying)).nodes) :
        t.node i = (s.setNode h.index (e.removed flying)).node i := by
      simp only [State.node, ht]
    rw [hnode _ hnodes, State.node_setNode]
    rfl

/-! ### QUERY_NODE and LIST_NODES (R181) -/

theorem identityField_eq (x : Option Identity) : identityField x = match x with
    | none => [0, 0, 0, 0, 0]
    | some x => 1 :: le32 x := by
  cases x <;> rfl

/-- The three flags of a node lie in three bits, so they add up. -/
theorem nodeFlags_eq (e : NodeEntry) : nodeFlags e =
    (if e.restartPending then 1 else 0) + (if e.morePending then 2 else 0) +
      (if e.noticePending then 4 else 0) := by
  unfold nodeFlags
  cases e.restartPending <;> cases e.morePending <;> cases e.noticePending <;> rfl

theorem queryNodeBody_eq {b0 b1 : Byte} {h : Handle} (hd : decodeHandle (b1 ++ b0) = some h)
    (e : NodeEntry) : queryNodeBody h e =
      [b0, b1, e.state.code, lineCode e.line, e.address.zeroExtend 8] ++ identityField e.identity ++
        [e.pollClass.code, BitVec.ofNat 8 e.missRun, if e.putToggle then 1 else 0,
          if e.acceptedToggle then 1 else 0,
          (if e.restartPending then 1 else 0) + (if e.morePending then 2 else 0) +
            (if e.noticePending then 4 else 0),
          e.changeCount, e.lastChange.code] ++ le16 e.goodReplies ++ le16 e.misses := by
  have hnumber : le16 h.number = [b0, b1] := by
    rw [number_of_decodeHandle hd]; exact le16_word16 b0 b1
  rw [queryNodeBody, hnumber, nodeFlags_eq]
  rfl

/-- Settles O37: both replies are the model's bodies, and the state is the one asked. -/
theorem nodeQueriesReadTheTable : Obligations.NodeQueriesReadTheTable := by
  intro s seq hs
  refine ⟨fun b0 b1 => ⟨fun hstale => ?_, fun h hd hcurrent => ?_⟩, fun l => ?_⟩
  · exact command_offer_refused 0x0A seq [b0, b1] requestQueryNode s .staleHandle hs rfl
      (withHandle_stale _ hstale)
  · intro e flag
    have haccept := command_offer_accepted 0x0A seq [b0, b1] _ requestQueryNode s s hs rfl
      (withHandle_current _ hd hcurrent)
    rw [queryNodeBody_eq hd, identityField_eq] at haccept
    exact haccept
  · exact command_offer_accepted 0x0B seq [lineCode l] _ requestListNodes s s hs rfl
      (withLine_line _ l)

end Sys2Proof.Machine

/-! Requests on transfers and discovery: SUBMIT, CANCEL, QUERY_TRANSFER, DISCOVER and STOP_DISCOVERY
(R182 to R184), and the timers that expire (R41, R60). -/

namespace Sys2Proof.Machine

/-! ### The fields of SUBMIT (R182, check 1) -/

/-- A field that check 1 of R182 refuses. -/
def SubmitBad (line kind p budget : Byte) (tag target : Word16) (payload : List Byte) : Prop :=
  1 < line.toNat ∨ tag = 0 ∨ 2 < kind.toNat ∨ 1 < p.toNat ∨ 7 < budget.toNat ∨
    (kind = 2 ∧ target ≠ 0xFFFF) ∨ (kind ≠ 2 ∧ ¬ target ≠ 0xFFFF) ∨ (kind ≠ 1 ∧ payload = [])

theorem decodeKind_none {b : Byte} (h : 2 < b.toNat) : decodeKind b = none := by
  unfold decodeKind
  split
  · omega
  · omega
  · omega
  · rfl

theorem decodePriority_none {b : Byte} (h : 1 < b.toNat) : decodePriority b = none := by
  unfold decodePriority
  split
  · omega
  · omega
  · rfl

theorem exists_lineCode {b : Byte} (h : ¬ 1 < b.toNat) : ∃ l, b = lineCode l := by
  have hb : b.toNat = 0 ∨ b.toNat = 1 := by omega
  obtain hb | hb := hb
  · exact ⟨.A, BitVec.eq_of_toNat_eq hb⟩
  · exact ⟨.B, BitVec.eq_of_toNat_eq hb⟩

theorem exists_kindCode {b : Byte} (h : ¬ 2 < b.toNat) : ∃ k : TransferKind, b = k.code := by
  have hb : b.toNat = 0 ∨ b.toNat = 1 ∨ b.toNat = 2 := by omega
  obtain hb | hb | hb := hb
  · exact ⟨.put, BitVec.eq_of_toNat_eq hb⟩
  · exact ⟨.take, BitVec.eq_of_toNat_eq hb⟩
  · exact ⟨.sendAll, BitVec.eq_of_toNat_eq hb⟩

theorem exists_priorityCode {b : Byte} (h : ¬ 1 < b.toNat) : ∃ p : Priority, b = p.code := by
  have hb : b.toNat = 0 ∨ b.toNat = 1 := by omega
  obtain hb | hb := hb
  · exact ⟨.normal, BitVec.eq_of_toNat_eq hb⟩
  · exact ⟨.urgent, BitVec.eq_of_toNat_eq hb⟩

theorem TransferKind.code_eq_two (k : TransferKind) : k.code = 2 ↔ k = .sendAll := by
  cases k <;> decide

theorem TransferKind.code_eq_one (k : TransferKind) : k.code = 1 ↔ k = .take := by
  cases k <;> decide

section
variable {line kind priority budget : Byte} {tag target : Word16} (deadline : Word16)
  {payload : List Byte} {l : Line} {k : TransferKind} {p : Priority}

/-- The target field of SUBMIT; 0xFFFF is none. -/
def givenTarget (target : Word16) : Option Word16 := if target = 0xFFFF then none else some target

theorem givenTarget_isSome (target : Word16) :
    (givenTarget target).isSome = true ↔ target ≠ 0xFFFF := by
  unfold givenTarget; split <;> simp_all

theorem givenTarget_isNone (target : Word16) :
    (givenTarget target).isNone = true ↔ target = 0xFFFF := by
  unfold givenTarget; split <;> simp_all

theorem refused_either {α : Type} (a b : Prop) [Decidable a] [Decidable b] (x : Option α) :
    (if a then none else if b then none else x) = if a ∨ b then none else x := by
  by_cases ha : a <;> by_cases hb : b <;> simp [ha, hb]

/-- With the codes decoded, check 1 is on the other fields. -/
theorem decodeSubmit_codes : decodeSubmit (lineCode l) k.code p.code budget tag target deadline payload =
    if tag = 0 ∨ 7 < budget.toNat ∨ (target ≠ 0xFFFF ∧ k = .sendAll) ∨
      (target = 0xFFFF ∧ k ≠ .sendAll) ∨ (payload = [] ∧ k ≠ .take) then none
    else some ⟨l, tag, k, p, givenTarget target, budget.toNat,
      if deadline = 0 then none else some deadline, payload⟩ := by
  simp only [decodeSubmit, decodeLine_lineCode, decodeKind_code, decodePriority_code, refused_either]
  rw [← givenTarget]
  simp only [Bool.and_eq_true, givenTarget_isSome, givenTarget_isNone, beq_iff_eq, bne_iff_ne,
    List.isEmpty_iff]

theorem decodeSubmit_none (h : SubmitBad line kind priority budget tag target payload) :
    decodeSubmit line kind priority budget tag target deadline payload = none := by
  by_cases hl : 1 < line.toNat
  · simp [decodeSubmit, decodeLine_none hl]
  by_cases hk : 2 < kind.toNat
  · cases hd : decodeLine line <;> simp [decodeSubmit, hd, decodeKind_none hk]
  by_cases hp : 1 < priority.toNat
  · cases hd : decodeLine line <;> cases hd' : decodeKind kind <;>
      simp [decodeSubmit, hd, hd', decodePriority_none hp]
  obtain ⟨l, rfl⟩ := exists_lineCode hl
  obtain ⟨k, rfl⟩ := exists_kindCode hk
  obtain ⟨p, rfl⟩ := exists_priorityCode hp
  rw [decodeSubmit_codes, if_pos]
  simp only [SubmitBad, hl, hk, hp, false_or, k.code_eq_two, k.code_eq_one, ne_eq, not_not] at h
  tauto

end

/-! ### SUBMIT (R182) -/

section
variable {line t0 t1 kind p h0 h1 budget d0 d1 : Byte} {payload : List Byte} {s : State}

theorem requestSubmit_badField (hlen : payload.length ≤ 48)
    (h : SubmitBad line kind p budget (t1 ++ t0) (h1 ++ h0) payload) :
    requestSubmit ([line, t0, t1, kind, p, h0, h1, budget, d0, d1] ++ payload) s =
      refuse .badValue s := by
  have hd : decodeSubmit line kind p budget (word16 t0 t1) (word16 h0 h1) (word16 d0 d1) payload =
      none := decodeSubmit_none _ h
  simp [requestSubmit, Config.payloadMaximum, Nat.not_lt.2 hlen, hd]

theorem requestSubmit_fields {x : SubmitFields} (hlen : payload.length ≤ 48)
    (h : decodeSubmit line kind p budget (t1 ++ t0) (h1 ++ h0) (d1 ++ d0) payload = some x) :
    requestSubmit ([line, t0, t1, kind, p, h0, h1, budget, d0, d1] ++ payload) s = submit x s := by
  have hd : decodeSubmit line kind p budget (word16 t0 t1) (word16 h0 h1) (word16 d0 d1) payload =
      some x := h
  simp [requestSubmit, Config.payloadMaximum, Nat.not_lt.2 hlen, hd]

end

section
variable {x : SubmitFields} {s : State}

theorem submit_stopped (h : (s.line x.line).guard.lineState = .down ∨
    (s.line x.line).guard.lineState = .stopping) : submit x s = refuse .lineDown s := by
  obtain h | h := h <;> simp only [submit, h]

variable (hl : ¬ ((s.line x.line).guard.lineState = .down ∨
    (s.line x.line).guard.lineState = .stopping))
include hl

/-- Checks 3 to 7, on a line that takes records. -/
theorem submit_open : submit x s =
    match firstFreeRecord s with
    | none => refuse .poolFull s
    | some r =>
      if (holderOf x.tag s).isSome then refuse .tagInUse s
      else
        match judgeTarget x s with
        | .error st => refuse st s
        | .ok target => acceptSubmit x target r s := by
  unfold submit
  split
  · rename_i h; exact absurd (.inl h) hl
  · rename_i h; exact absurd (.inr h) hl
  · rfl

theorem submit_full (h : firstFreeRecord s = none) : submit x s = refuse .poolFull s := by
  rw [submit_open hl, h]

variable {r : RecordIndex} (hr : firstFreeRecord s = some r)
include hr

theorem submit_tagInUse (h : (holderOf x.tag s).isSome = true) :
    submit x s = refuse .tagInUse s := by
  rw [submit_open hl, hr]
  exact if_pos h

variable (ht : (holderOf x.tag s).isSome = false)
include ht

theorem submit_badTarget {st : Status} (h : judgeTarget x s = .error st) :
    submit x s = refuse st s := by
  rw [submit_open hl, hr]
  simp only [ht, h, Bool.false_eq_true, if_false]

theorem submit_accepted {target : Option Handle} (h : judgeTarget x s = .ok target) :
    submit x s = acceptSubmit x target r s := by
  rw [submit_open hl, hr]
  simp only [ht, h, Bool.false_eq_true, if_false]

end

theorem firstFreeRecord_none {s : State} (h : ∀ r : RecordIndex, (s.record r).state ≠ .free) :
    firstFreeRecord s = none := find?_finRange_eq_none _ fun r => by simpa using h r

theorem firstFreeRecord_some {s : State} {r : RecordIndex} (h : (s.record r).state = .free)
    (hlow : ∀ q, q < r → (s.record q).state ≠ .free) : firstFreeRecord s = some r :=
  find?_finRange_eq_some _ r (by simpa using h) fun q hq => by simpa using hlow q hq

theorem exists_firstFreeRecord {s : State} (h : ¬ ∀ r : RecordIndex, (s.record r).state ≠ .free) :
    ∃ r, firstFreeRecord s = some r := by
  cases hf : firstFreeRecord s with
  | some r => exact ⟨r, rfl⟩
  | none =>
    rw [firstFreeRecord, List.find?_eq_none] at hf
    refine absurd (fun r hr => hf r (List.mem_finRange r) ?_) h
    simpa using hr

theorem holderOf_isSome_iff (tag : Word16) (s : State) : (holderOf tag s).isSome = true ↔
    ∃ r : RecordIndex, (s.record r).state ≠ .free ∧ (s.record r).tag = tag := by
  simp [holderOf, recordIndexes]

theorem judgeTarget_stale {x : SubmitFields} {s : State} {w : Word16} (hx : x.target = some w)
    (h : ∀ y : Handle, decodeHandle w = some y → isStale y s = true) :
    judgeTarget x s = .error .staleHandle := by
  simp only [judgeTarget, hx, lookupHandle_none h]

theorem judgeTarget_current {x : SubmitFields} {s : State} {w : Word16} {h : Handle}
    (hx : x.target = some w) (hd : decodeHandle w = some h) (hs : isStale h s = false) :
    judgeTarget x s =
      if (s.node h.index).state = .lost then .error .nodeLost
      else if (s.node h.index).line ≠ x.line then .error .badValue
      else .ok (some h) := by
  simp only [judgeTarget, hx, lookupHandle_some hd hs, beq_iff_eq, bne_iff_ne, ne_eq]

/-- Settles O39: each check of R182, where those before it have passed. -/
theorem submitChecksInOrder : Obligations.SubmitChecksInOrder := by
  intro s seq line t0 t1 kind p h0 h1 budget d0 d1 payload hs hlen body tag given badField refused
  have refused_of {st : Status} (h : requestSubmit body s = refuse st s) : refused st.code :=
    command_offer_refused 0x0C seq body requestSubmit s st hs rfl h
  refine ⟨fun hbad => refused_of (requestSubmit_badField hlen hbad), fun hgood l hline => ?_⟩
  subst hline
  intro stopped full held
  obtain ⟨hk, hp⟩ : ¬ 2 < kind.toNat ∧ ¬ 1 < p.toNat := by
    constructor <;> exact fun h => hgood (by simp [badField, h])
  obtain ⟨k, rfl⟩ := exists_kindCode hk
  obtain ⟨pr, rfl⟩ := exists_priorityCode hp
  let x : SubmitFields := ⟨l, tag, k, pr, givenTarget (h1 ++ h0), budget.toNat,
    if (d1 ++ d0 : Word16) = 0 then none else some (d1 ++ d0), payload⟩
  have hfields : requestSubmit body s = submit x s := by
    refine requestSubmit_fields hlen ?_
    rw [decodeSubmit_codes, if_neg]
    simp only [badField, given, k.code_eq_two, k.code_eq_one, ne_eq, not_not] at hgood
    tauto
  refine ⟨fun hstop => refused_of (hfields.trans (submit_stopped hstop)), fun hopen hfull =>
    refused_of (hfields.trans (submit_full hopen (firstFreeRecord_none hfull))),
    fun hopen hroom hheld => ?_, fun hopen hroom hfree hkind => ?_⟩
  · obtain ⟨r, hr⟩ := exists_firstFreeRecord hroom
    exact refused_of (hfields.trans
      (submit_tagInUse hopen hr ((holderOf_isSome_iff _ s).2 hheld)))
  · obtain ⟨r, hr⟩ := exists_firstFreeRecord hroom
    have hnone : (holderOf x.tag s).isSome = false :=
      Bool.eq_false_iff.2 (mt (holderOf_isSome_iff _ s).1 hfree)
    have hgiven : (h1 ++ h0 : Word16) ≠ 0xFFFF := by
      intro h
      exact hgood (.inr (.inr (.inr (.inr (.inr (.inr (.inl ⟨hkind, not_not.2 h⟩)))))))
    have htarget : x.target = some (h1 ++ h0) := if_neg hgiven
    have bad_of {st : Status} (h : judgeTarget x s = .error st) : refused st.code :=
      refused_of (hfields.trans (submit_badTarget hopen hr hnone h))
    refine ⟨fun hstale => bad_of (judgeTarget_stale htarget hstale), fun h hd hcurrent =>
      ⟨fun hlost => ?_, fun hlost hother => ?_⟩⟩
    · exact bad_of (by rw [judgeTarget_current htarget hd hcurrent, if_pos hlost])
    · exact bad_of (by rw [judgeTarget_current htarget hd hcurrent, if_neg hlost, if_pos hother])

/-! ### A record joins its queue (R30) -/

theorem PoolOk.queuesOk {s : State} (h : PoolOk s) (l : Line) : QueuesOk s l := by
  obtain ⟨-, hA, hB, -⟩ := h
  cases l
  · exact hA
  · exact hB

theorem PoolOk.queued {s : State} (h : PoolOk s) {l : Line} {p : Priority} {r : RecordIndex}
    (hr : r ∈ (s.line l).queue p) : (s.record r).state = .queued ∧ (s.record r).line = l ∧
      (s.record r).priority = p := by
  obtain ⟨-, -, hu, hn, -⟩ := h.queuesOk l
  cases p
  · exact hn r hr
  · exact hu r hr

theorem PoolOk.notQueued {s : State} (h : PoolOk s) {r : RecordIndex}
    (hr : (s.record r).state ≠ .queued) (l : Line) (p : Priority) : r ∉ (s.line l).queue p :=
  fun hq => hr (h.queued hq).1

theorem findIdx?_append_self {q : List RecordIndex} {r : RecordIndex} (h : r ∉ q) :
    (q ++ [r]).findIdx? (· == r) = some q.length := by
  induction q with
  | nil => simp
  | cons x q ih =>
    obtain ⟨hx, hq⟩ := not_or.1 (mt List.mem_cons.2 h)
    have hne : (x == r) = false := by simpa using Ne.symm hx
    simp [List.findIdx?_cons, hne, ih hq]

theorem LineBlock.queue_withTail (b : LineBlock) (p : Priority) (r : RecordIndex) :
    (b.withTail p r).queue p = b.queue p ++ [r] := by
  cases p <;> rfl

theorem acceptSubmit_eq {x : SubmitFields} {target : Option Handle} {r : RecordIndex} {s : State}
    (h : r ∉ (s.line x.line).queue x.priority) :
    let u := (s.setRecord r (x.record target)).setLine x.line ((s.line x.line).withTail x.priority r)
    acceptSubmit x target r s = accept (choose x.line u)
      (le16 x.tag ++ [BitVec.ofNat 8 (((s.line x.line).queue x.priority).length + 1)]) := by
  intro u
  have hu : queueTail r (s.setRecord r (x.record target)) = u := by
    rw [queueTail_eq, State.record_setRecord_self, State.line_setRecord]
    rfl
  have hplace : queuePosition r u = ((s.line x.line).queue x.priority).length + 1 := by
    have hrec : u.record r = x.record target := by simp [u]
    simp only [queuePosition, hrec]
    simp only [u, SubmitFields.record, State.line_setLine_self, LineBlock.queue_withTail,
      findIdx?_append_self h]
  rw [acceptSubmit, hu, hplace]
  rfl

/-- The record that SUBMIT fills, by its deadline. -/
theorem SubmitFields.record_deadline (x : SubmitFields) (target : Option Handle) {d : Word16}
    (h : x.deadline = if d = 0 then none else some d) :
    (x.record target).deadlineTimer = if d = 0 then none else some (d.toNat * millisecond) := by
  simp only [SubmitFields.record, h]
  split <;> rfl

/-- Settles O38: every check passes, and the FREE record of lowest index joins its queue. -/
theorem submitQueuesARecord : Obligations.SubmitQueuesARecord := by
  intro s seq t0 t1 h0 h1 budget d0 d1 payload l kind p target r hs hpool body tag deadline htag hbudget
    hlen hpayload htarget hdown hstop hfree hlow hnone b u
  let x : SubmitFields := ⟨l, tag, kind, p, givenTarget (h1 ++ h0), budget.toNat,
    if deadline = 0 then none else some deadline, payload⟩
  have hgiven : (h1 ++ h0 : Word16) = 0xFFFF ↔ kind = .sendAll := by
    cases target with
    | none => exact iff_of_true htarget.2 htarget.1
    | some h =>
      obtain ⟨hkind, hd, -⟩ := htarget
      refine iff_of_false (fun h => ?_) hkind
      rw [h] at hd
      exact absurd hd (by rw [decodeHandle_none (by decide)]; exact (nomatch ·))
  have hfields : requestSubmit body s = submit x s := by
    refine requestSubmit_fields hlen ?_
    rw [decodeSubmit_codes, if_neg]
    rintro (h | h | ⟨h, h'⟩ | ⟨h, h'⟩ | ⟨h, h'⟩)
    · exact htag h
    · exact absurd hbudget (Nat.not_le.2 h)
    · exact h (hgiven.2 h')
    · exact h' (hgiven.1 h)
    · exact hpayload h' h
  have hjudge : judgeTarget x s = .ok target := by
    cases target with
    | none =>
      have hx : x.target = none := if_pos (hgiven.2 htarget.1)
      simp only [judgeTarget, hx]
    | some h =>
      obtain ⟨hkind, hd, hcurrent, hlost, hline⟩ := htarget
      have hx : x.target = some (h1 ++ h0) := if_neg (mt hgiven.1 hkind)
      rw [judgeTarget_current hx hd hcurrent, if_neg hlost, if_neg (not_not.2 hline)]
  have hheld : (holderOf x.tag s).isSome = false :=
    Bool.eq_false_iff.2 (mt (holderOf_isSome_iff _ s).1 fun ⟨q, hq, hq'⟩ => hnone q hq hq')
  have hout : r ∉ (s.line l).queue p := hpool.notQueued (by rw [hfree]; decide) l p
  have hsubmit : requestSubmit body s = accept (choose l u)
      (le16 tag ++ [BitVec.ofNat 8 ((b.queue p).length + 1)]) := by
    rw [hfields, submit_accepted (not_or.2 ⟨hdown, hstop⟩) (firstFreeRecord_some hfree hlow) hheld hjudge,
      acceptSubmit_eq hout]
    have hrecord := x.record_deadline target (d := deadline) rfl
    simp only [u, ← hrecord]
    rfl
  have haccept := command_offer_accepted 0x0C seq body _ requestSubmit s _ hs rfl hsubmit
  have htag' : le16 tag = [t0, t1] := le16_word16 t0 t1
  rw [htag'] at haccept
  exact haccept

/-! ### CANCEL and QUERY_TRANSFER (R183) -/

theorem State.setRecord_setLine (s : State) (l : Line) (b : LineBlock) (r : RecordIndex)
    (x : TransferRecord) : (s.setLine l b).setRecord r x = (s.setRecord r x).setLine l b := by
  cases l <;> rfl

theorem completeFromQueue_eq (r : RecordIndex) (result : TransferResult) (s : State) :
    let x := s.record r
    let b := s.line x.line
    completeFromQueue r result s =
      ((s.setRecord r (completedWith result x)).setLine x.line
        { b with urgent := b.urgent.erase r, normal := b.normal.erase r }).withReports
          (enqueueAll [.completion r] s.reports) := by
  intro x b
  rw [completeFromQueue, completeRecord_eq, State.updLine_eq, State.record_setLine,
    State.setRecord_setLine, State.reports_setLine]

theorem holderOf_some {s : State} (h : PoolOk s) {r : RecordIndex} {tag : Word16}
    (hr : (s.record r).state ≠ .free) (ht : (s.record r).tag = tag) : holderOf tag s = some r := by
  obtain ⟨-, -, -, -, -, -, -, hunique⟩ := h
  refine find?_finRange_eq_some _ r (by simp [hr, ht]) fun q hq => ?_
  refine Bool.eq_false_iff.2 fun hheld => ?_
  simp only [Bool.and_eq_true, bne_iff_ne, ne_eq, beq_iff_eq] at hheld
  exact absurd (hunique q r hheld.1 hr (hheld.2.trans ht.symm)) (Fin.ne_of_lt hq)

section
variable {t0 t1 : Byte} {s : State} (f : RecordIndex → Answer)

theorem withTag_unknown
    (h : ∀ r : RecordIndex, (s.record r).state ≠ .free → (s.record r).tag ≠ t1 ++ t0) :
    withTag [t0, t1] s f = refuse .unknownTag s := by
  have hn : holderOf (word16 t0 t1) s = none := by
    rw [← Option.not_isSome_iff_eq_none, holderOf_isSome_iff]
    exact fun ⟨r, hr, ht⟩ => h r hr ht
  simp [withTag, hn]

theorem withTag_holder {r : RecordIndex} (h : holderOf (t1 ++ t0) s = some r) :
    withTag [t0, t1] s f = f r := by
  have hn : holderOf (word16 t0 t1) s = some r := h
  simp [withTag, hn]

end

theorem resultCode_eq (x : Option TransferResult) : resultCode x = match x with
    | none => 0xFF
    | some o => o.code := by
  cases x <;> rfl

/-- Settles O40: one record at most holds the tag, and its state decides. -/
theorem cancelAndQueryFindTheTag : Obligations.CancelAndQueryFindTheTag := by
  intro s seq t0 t1 hs hpool tag
  refine ⟨fun hnone => ⟨?_, ?_⟩, fun r hr ht => ?_⟩
  · exact command_offer_refused 0x0D seq [t0, t1] requestCancel s .unknownTag hs rfl
      (withTag_unknown _ hnone)
  · exact command_offer_refused 0x0E seq [t0, t1] requestQueryTransfer s .unknownTag hs rfl
      (withTag_unknown _ hnone)
  intro x b place
  have hholder := holderOf_some hpool hr ht
  have refused_of {st : Status} (h : (match x.state with
      | .queued => accept (completeFromQueue r .cancelled s) (le16 x.tag)
      | .inFlight => refuse .inFlight s
      | _ => refuse .unknownTag s) = refuse st s) :
      exec (.cancel seq [t0, t1]) s = .next (answered 0x0D seq [t0, t1] [st.code] s) :=
    command_offer_refused 0x0D seq [t0, t1] requestCancel s st hs rfl
      ((withTag_holder _ hholder).trans h)
  refine ⟨?_, fun hdone => refused_of (st := .unknownTag) (by rw [hdone]), fun hflying =>
    refused_of (st := .inFlight) (by rw [hflying]),
    fun hqueued => ?_⟩
  · exact command_offer_accepted 0x0E seq [t0, t1] _ requestQueryTransfer s s hs rfl
      ((withTag_holder _ hholder).trans (by
        rw [queryTransferBody, resultCode_eq]
        rfl))
  · intro left
    have hle : le16 x.tag = [t0, t1] := by rw [show x.tag = tag from ht]; exact le16_word16 t0 t1
    have haccept := command_offer_accepted 0x0D seq [t0, t1] (le16 x.tag) requestCancel s
      (completeFromQueue r .cancelled s) hs rfl ((withTag_holder _ hholder).trans (by
        simp only [show (s.record r).state = .queued from hqueued]; rfl))
    rw [hle, completeFromQueue_eq] at haccept
    exact haccept

/-! ### DISCOVER and STOP_DISCOVERY (R184) -/

/-- What DISCOVER makes of a line. -/
def discover (s : State) (l : Line) : Answer :=
  if (s.line l).discovery.active then refuse .discoveryActive s
  else if (s.line l).guard.lineState != .running then refuse .lineDown s
  else accept (choose l (s.updDiscovery l Discovery.started)) []

/-- Settles O41: the two checks, then the record of a run begun. -/
theorem discoverStartsARun : Obligations.DiscoverStartsARun := by
  intro s seq l hs b c
  refine ⟨fun hactive => ?_, fun hactive hrun => ?_, fun hactive hrun => ?_⟩
  · exact command_withLine_refused (f := discover) hs rfl .discoveryActive (if_pos hactive)
  · refine command_withLine_refused (f := discover) hs rfl .lineDown ?_
    rw [discover, hactive, if_neg Bool.false_ne_true, if_pos (by simpa using hrun)]
  · refine command_withLine_accepted (f := discover) hs rfl ?_
    rw [discover, hactive, if_neg Bool.false_ne_true, hrun]
    rfl

/-- What STOP_DISCOVERY makes of a line. -/
def stopDiscovery (s : State) (l : Line) : Answer :=
  let b := s.line l
  if !b.discovery.active || b.discovery.stopPending != .none then refuse .wrongState s
  else if b.scheduler.stepInProgress then
    accept (s.updDiscovery l fun d => { d with stopPending := .cancelled }) [yesNo false]
  else accept (endRun l .cancelled s) [yesNo true]

/-- Settles O42: the check, then a stop left pending or the run's end. -/
theorem stopDiscoveryEndsTheRun : Obligations.StopDiscoveryEndsTheRun := by
  intro s seq l hs b d c
  refine ⟨fun hnot => ?_, fun hactive hnone hstep => ?_, fun hactive hnone hstep => ?_⟩
  · refine command_withLine_refused (f := stopDiscovery) hs rfl .wrongState (if_pos ?_)
    simpa [d, b] using hnot
  · refine command_withLine_accepted (f := stopDiscovery) hs rfl ?_
    simp only [stopDiscovery, show (s.line l).discovery.active = true from hactive,
      show (s.line l).discovery.stopPending = .none from hnone,
      show (s.line l).scheduler.stepInProgress = true from hstep]
    rfl
  · obtain ⟨h1, h2, h3, h4, h5, h6⟩ := endRun_spec l .cancelled s
    refine ⟨_, command_withLine_accepted (f := stopDiscovery) (t := endRun l .cancelled s)
      (reply := [1]) hs rfl ?_, ?_, h2, ?_, h4, h5, h6⟩
    · simp only [stopDiscovery, show (s.line l).discovery.active = true from hactive,
        show (s.line l).discovery.stopPending = .none from hnone,
        show (s.line l).scheduler.stepInProgress = false from hstep]
      rfl
    · have hsame : ({ b.scheduler with stepInProgress := false } : Scheduler) = b.scheduler := by
        rw [← hstep]
      rw [h1, show (s.line l).discovery.active = true from hactive, if_pos rfl, if_pos rfl, hsame]
      show { b with discovery := { d.ended .cancelled with noticePending := true } } = _
      rw [Discovery.ended, ← hnone]
    · rw [h3, runSources, if_pos hactive]

/-! ### Timers (R41, R60) -/

/-- Settles O57: a QUEUED record completes from its queue, and a floor that elapses prompts a choice. -/
theorem timersExpireRecordsAndFloors : Obligations.TimersExpireRecordsAndFloors := by
  refine fun s hpin => ⟨fun r => ?_, fun l d hfloor => ?_⟩
  · intro x b hqueued htimer left
    have hexpire : expireDeadline r s = completeFromQueue r .expired s := by
      have hsome : (s.record r).deadlineTimer.isSome = true := Option.isSome_iff_ne_none.2 htimer
      simp [expireDeadline, show (s.record r).state = .queued from hqueued, hsome]
    show command (expireDeadline r) s = _
    rw [command_high _ hpin, hexpire, completeFromQueue_eq]
    rfl
  · show command (elapseFloor l) s = _
    rw [command_high _ hpin, elapseFloor, hfloor]
    rfl

end Sys2Proof.Machine

/-! Line frames, replies and reports as bytes (R66 to R70, R79, R148 to R155, R185, R186). -/

namespace Sys2Proof.Machine

/-! ### Master frames (Table 12-7) -/

theorem headByte_eq (a : Address) : (0x80 ||| a.zeroExtend 8 : Byte) = 0x80 + a.zeroExtend 8 := by
  revert a
  decide +kernel

theorem broadcastHead : (0x80 ||| (0 : Address).zeroExtend 8 : Byte) = 0x80 := by decide

theorem joinHead : (0x80 ||| (126 : Address).zeroExtend 8 : Byte) = 0xFE := by decide

theorem pollFlags : ∀ ack hold restart : Bool,
    (1 ||| (flagBit 5 ack ||| flagBit 6 hold ||| flagBit 7 restart) : Byte) =
      1 + (if ack then 32 else 0) + (if hold then 64 else 0) + (if restart then 128 else 0) := by
  decide

theorem putFlags : ∀ toggle restart : Bool, (2 ||| (flagBit 4 toggle ||| flagBit 7 restart) : Byte) =
    2 + (if toggle then 16 else 0) + (if restart then 128 else 0) := by
  decide

theorem takeFlags : ∀ restart : Bool,
    (3 ||| flagBit 7 restart : Byte) = 3 + (if restart then 128 else 0) := by
  decide

/-- A range value with every bit beyond its length 0 is its own mask. -/
theorem maskTo_eq {n : Nat} {v : BitVec 32} (hn : n ≤ 32) (h : v <<< n = 0#32) : maskTo n v = v := by
  apply BitVec.eq_of_getLsbD_eq
  intro i hi
  simp only [maskTo, BitVec.getLsbD_shiftLeft, BitVec.getLsbD_ushiftRight, hi, decide_true,
    Bool.true_and]
  by_cases hlow : i < 32 - n
  · have hbit : (v <<< n).getLsbD (i + n) = v.getLsbD i := by
      simp only [BitVec.getLsbD_shiftLeft, Nat.add_sub_cancel, Nat.not_lt.2 (Nat.le_add_left n i),
        decide_false, Bool.not_false, show i + n < 32 by omega, decide_true, Bool.true_and]
    rw [h] at hbit
    simpa [hlow] using hbit
  · have hsum : 32 - n + (i - (32 - n)) = i := by omega
    simp [hlow, hsum]

/-- A frame's head byte as the sum of its direction bit and its address. -/
theorem MasterFrame.head_eq (f : MasterFrame) : f.head = match f with
    | .poll a _ _ _ => 0x80 + a.zeroExtend 8
    | .put a _ _ _ => 0x80 + a.zeroExtend 8
    | .take a _ _ => 0x80 + a.zeroExtend 8
    | .sendAll _ => 0x80
    | .invite _ _ => 0xFE
    | .assign _ _ => 0xFE := by
  cases f with
  | poll a _ _ _ => exact headByte_eq a
  | put a _ _ _ => exact headByte_eq a
  | take a _ _ => exact headByte_eq a
  | sendAll _ => exact broadcastHead
  | invite _ _ => exact joinHead
  | assign _ _ => exact joinHead

/-- A frame's flags lie in separate bits, so kind code and flags add up. -/
theorem MasterFrame.control_eq (f : MasterFrame) : f.control = match f with
    | .poll _ ack hold restart =>
      1 + (if ack then 32 else 0) + (if hold then 64 else 0) + (if restart then 128 else 0)
    | .put _ toggle restart _ => 2 + (if toggle then 16 else 0) + (if restart then 128 else 0)
    | .take _ restart _ => 3 + (if restart then 128 else 0)
    | .sendAll _ => 4
    | .invite _ _ => 5
    | .assign _ _ => 6 := by
  cases f with
  | poll a ack hold restart => exact pollFlags ack hold restart
  | put a toggle restart p => exact putFlags toggle restart
  | take a restart p => exact takeFlags restart
  | sendAll _ => exact (show (4 ||| 0 : Byte) = 4 by decide)
  | invite _ _ => exact (show (5 ||| 0 : Byte) = 5 by decide)
  | assign _ _ => exact (show (6 ||| 0 : Byte) = 6 by decide)

/-- What follows the head: control, length, payload and check. -/
theorem MasterFrame.characters_eq (f : MasterFrame) {rest : List Byte}
    (h : f.control :: BitVec.ofNat 8 f.payload.length :: f.payload = rest) :
    f.characters = (f.head, true) :: (rest ++ le16 (crc (f.head :: rest))).map fun b => (b, false) := by
  subst h
  rfl

/-- Settles O43: head and control add up, and the payload is laid out as the table says. -/
theorem masterFramesAreLaidOut : Obligations.MasterFramesAreLaidOut := by
  intro f bit size head rest hinvite
  have hhead : f.head = head := f.head_eq.trans (by cases f <;> rfl)
  have hrest : f.control :: BitVec.ofNat 8 f.payload.length :: f.payload = rest := by
    rw [f.control_eq]
    cases f with
    | invite n v =>
      obtain ⟨hn, hv⟩ := hinvite n v rfl
      simp only [MasterFrame.payload, maskTo_eq hn hv]
      rfl
    | poll _ _ _ _ => rfl
    | put _ _ _ _ => rfl
    | take _ _ _ => rfl
    | sendAll _ => rfl
    | assign _ _ => rfl
  rw [f.characters_eq hrest, hhead]

/-! ### Replies (R79) -/

/-- A reply taken apart: its payload is as long as its length byte says. -/
theorem judgeReply_parts (f : MasterFrame) (head control length low high : Byte) {payload : List Byte}
    (h : payload.length = length.toNat) :
    judgeReply f (head :: control :: length :: payload ++ [low, high]) =
      match decodeReply control payload with
      | some c =>
        if [low, high] = le16 (crc (head :: control :: length :: payload)) &&
            !head.getLsbD 7 && some (head.extractLsb' 0 7) == expectedSource f &&
            replyAllowed f c then
          .reply c
        else .badReply
      | none => .badReply := by
  have htake : (payload ++ [low, high]).take length.toNat = payload := by rw [← h]; simp
  have hdrop : (payload ++ [low, high]).drop length.toNat = [low, high] := by rw [← h]; simp
  show judgeReply f (head :: control :: length :: (payload ++ [low, high])) = _
  simp only [judgeReply, htake, hdrop] <;> rfl

/-- The control character of a node's reply. -/
def NodeReply.control : NodeReply → Byte
  | .ack => 8
  | .nak _ => 9
  | .data toggle more _ => 10 ||| flagBit 4 toggle ||| flagBit 6 more
  | .empty more => 11 ||| flagBit 6 more
  | .bid _ => 12

/-- The payload of a node's reply. -/
def NodeReply.payload : NodeReply → List Byte
  | .nak .busy => [1]
  | .nak .refused => [2]
  | .data _ _ p => p
  | .bid x => le32 x
  | _ => []

theorem replyBytes_eq (source : Address) (c : NodeReply) : replyBytes source c =
    let covered := source.zeroExtend 8 :: c.control :: BitVec.ofNat 8 c.payload.length :: c.payload
    covered ++ le16 (crc covered) := by
  cases c with
  | nak why => cases why <;> rfl
  | ack => rfl
  | data _ _ _ => rfl
  | empty _ => rfl
  | bid _ => rfl

/-- Data of a reply fits Table 4-3. -/
def NodeReply.fits : NodeReply → Prop
  | .data _ _ p => 1 ≤ p.length ∧ p.length ≤ 48
  | _ => True

theorem control_data (toggle more : Bool) :
    (((10 ||| flagBit 4 toggle ||| flagBit 6 more : Byte) &&& 0x0F).toNat = 10) ∧
      (10 ||| flagBit 4 toggle ||| flagBit 6 more : Byte).getLsbD 4 = toggle ∧
      (10 ||| flagBit 4 toggle ||| flagBit 6 more : Byte).getLsbD 6 = more := by
  cases toggle <;> cases more <;> decide

theorem decodeReply_data (toggle more : Bool) (p : List Byte) :
    decodeReply (NodeReply.data toggle more p).control p =
      if 1 ≤ p.length ∧ p.length ≤ 48 then some (.data toggle more p) else none := by
  obtain ⟨hkind, htoggle, hmore⟩ := control_data toggle more
  cases p with
  | nil => simp only [decodeReply, NodeReply.control, hkind]; rfl
  | cons b rest =>
    simp only [decodeReply, NodeReply.control, hkind, htoggle, hmore, List.length_cons]
    by_cases h : rest.length < 48
    · rw [if_pos h, if_pos (by omega)]
    · rw [if_neg h, if_neg (by omega)]

/-- A reply that fits is read back. -/
theorem decodeReply_payload {c : NodeReply} (h : c.fits) :
    decodeReply c.control c.payload = some c := by
  cases c with
  | ack => rfl
  | nak why => cases why <;> rfl
  | data t m p => exact (decodeReply_data t m p).trans (if_pos h)
  | empty more => cases more <;> rfl
  | bid x =>
    have hkind : ((12 : Byte) &&& 0x0F).toNat = 12 := rfl
    simp only [decodeReply, NodeReply.control, NodeReply.payload, le32, hkind, word32_le32]

theorem decodeReply_unfit {c : NodeReply} (h : ¬ c.fits) : decodeReply c.control c.payload = none := by
  cases c with
  | data t m p => exact (decodeReply_data t m p).trans (if_neg h)
  | ack => exact absurd trivial h
  | nak _ => exact absurd trivial h
  | empty _ => exact absurd trivial h
  | bid _ => exact absurd trivial h

theorem sourceByte (a : Address) :
    (a.zeroExtend 8 : Byte).getLsbD 7 = false ∧ (a.zeroExtend 8 : Byte).extractLsb' 0 7 = a := by
  revert a
  decide +kernel

/-- A reply's own bytes have a good check and the source in their head. -/
theorem judgeReply_replyBytes (f : MasterFrame) (source : Address) {c : NodeReply}
    (h : c.payload.length ≤ 255) : judgeReply f (replyBytes source c) =
      match decodeReply c.control c.payload with
      | some d => if some source = expectedSource f ∧ replyAllowed f d = true then .reply d
        else .badReply
      | none => .badReply := by
  have hlen : c.payload.length = (BitVec.ofNat 8 c.payload.length).toNat := by
    rw [BitVec.toNat_ofNat]; omega
  obtain ⟨hdirection, hsource⟩ := sourceByte source
  rw [replyBytes_eq]
  refine (judgeReply_parts f _ _ _ _ _ hlen).trans ?_
  simp only [hdirection, hsource]
  cases decodeReply c.control c.payload with
  | none => rfl
  | some d => simp [le16]

/-- The replies that a master frame calls for. -/
def MasterFrame.calls (f : MasterFrame) (source : Address) (c : NodeReply) : Prop :=
  some source = expectedSource f ∧ replyAllowed f c = true ∧ c.fits

/-- The kinds of Table 4-5, each with its source. -/
theorem MasterFrame.calls_iff (f : MasterFrame) (source : Address) (c : NodeReply) :
    f.calls source c ↔ match f, c with
      | .poll a _ _ _, .data _ _ p => source = a ∧ 1 ≤ p.length ∧ p.length ≤ 48
      | .poll a _ _ _, .empty _ => source = a
      | .poll a _ _ _, .nak why => source = a ∧ why = .busy
      | .put a _ _ _, .ack => source = a
      | .put a _ _ _, .nak _ => source = a
      | .take a _ _, .data _ _ p => source = a ∧ 1 ≤ p.length ∧ p.length ≤ 48
      | .take a _ _, .nak _ => source = a
      | .invite _ _, .bid _ => source = 126
      | .assign _ a, .ack => source = a
      | _, _ => False := by
  cases f with
  | poll a ack hold restart =>
    cases c with
    | nak why => cases why <;> simp [calls, expectedSource, replyAllowed, NodeReply.fits]
    | _ => simp [calls, expectedSource, replyAllowed, NodeReply.fits]
  | _ => cases c <;> simp [calls, expectedSource, replyAllowed, NodeReply.fits]

theorem judgeReply_called {f : MasterFrame} {source : Address} {c : NodeReply}
    (h : f.calls source c) (hlen : c.payload.length ≤ 255) :
    judgeReply f (replyBytes source c) = .reply c := by
  obtain ⟨hsource, hallowed, hfits⟩ := h
  rw [judgeReply_replyBytes f source hlen, decodeReply_payload hfits]
  exact if_pos ⟨hsource, hallowed⟩

theorem judgeReply_uncalled {f : MasterFrame} {source : Address} {c : NodeReply}
    (h : ¬ f.calls source c) (hlen : c.payload.length ≤ 255) :
    judgeReply f (replyBytes source c) = .badReply := by
  rw [judgeReply_replyBytes f source hlen]
  by_cases hfits : c.fits
  · rw [decodeReply_payload hfits]
    exact if_neg fun ⟨hsource, hallowed⟩ => h ⟨hsource, hallowed, hfits⟩
  · rw [decodeReply_unfit hfits]

theorem payload_short {c : NodeReply} (h : ∀ (t m : Bool) (p : List Byte), c = .data t m p →
    p.length ≤ 255) : c.payload.length ≤ 255 := by
  cases c with
  | data t m p => exact h t m p rfl
  | nak why => cases why <;> decide
  | bid x => simp [NodeReply.payload, le32]
  | ack => exact Nat.zero_le _
  | empty m => exact Nat.zero_le _

theorem fits_short {c : NodeReply} (h : c.fits) : c.payload.length ≤ 255 :=
  payload_short fun t m p hc => by subst hc; exact h.2.trans (by decide)

/-- Kind code and payload of a reply that is read. -/
theorem decodeReply_some {control : Byte} {payload : List Byte} {c : NodeReply}
    (h : decodeReply control payload = some c) :
    let kind := (control &&& 0x0F).toNat
    kind = 8 ∧ payload = [] ∨ kind = 9 ∧ (payload = [1] ∨ payload = [2]) ∨
      kind = 10 ∧ payload ≠ [] ∧ payload.length ≤ 48 ∨ kind = 11 ∧ payload = [] ∨
      kind = 12 ∧ payload.length = 4 := by
  intro kind
  unfold decodeReply at h
  split at h
  · rename_i hk; exact .inl ⟨hk, rfl⟩
  · rename_i r hk
    refine .inr (.inl ⟨hk, ?_⟩)
    split at h
    · rename_i hr; exact .inl (by rw [BitVec.eq_of_toNat_eq (y := 1) hr])
    · rename_i hr; exact .inr (by rw [BitVec.eq_of_toNat_eq (y := 2) hr])
    · cases h
  · rename_i b rest hk
    split at h
    · rename_i hlen
      exact .inr (.inr (.inl ⟨hk, List.cons_ne_nil _ _, by rw [List.length_cons]; omega⟩))
    · cases h
  · rename_i hk; exact .inr (.inr (.inr (.inl ⟨hk, rfl⟩)))
  · rename_i hk; exact .inr (.inr (.inr (.inr ⟨hk, rfl⟩)))
  · cases h

theorem judgeReply_unread (f : MasterFrame) (head control length low high : Byte)
    {payload : List Byte} (h : payload.length = length.toNat) (hd : decodeReply control payload = none) :
    judgeReply f (head :: control :: length :: payload ++ [low, high]) = .badReply := by
  rw [judgeReply_parts _ _ _ _ _ _ h, hd]

theorem judgeReply_refused (f : MasterFrame) (head control length low high : Byte)
    {payload : List Byte} (h : payload.length = length.toNat)
    (hbad : [low, high] ≠ le16 (crc (head :: control :: length :: payload)) ∨
      head.getLsbD 7 = true) :
    judgeReply f (head :: control :: length :: payload ++ [low, high]) = .badReply := by
  rw [judgeReply_parts _ _ _ _ _ _ h]
  split
  · obtain hbad | hbad := hbad <;> simp [hbad]
  · rfl

theorem getLsbD_seven_of_le {b : Byte} (h : 0x80 ≤ b.toNat) : b.getLsbD 7 = true := by
  revert b
  decide +kernel

/-- Settles O44: a called reply is read back, and everything else fails one of the tests. -/
theorem repliesAreJudged : Obligations.RepliesAreJudged := by
  intro f full called
  have hcalled (source : Address) (c : NodeReply) : f.calls source c ↔ called source c :=
    f.calls_iff source c
  refine ⟨fun source c h => ?_, fun source c h hshort => ?_,
    fun head control length low high payload hlen hbad => ?_⟩
  · have h := (hcalled source c).2 h
    exact judgeReply_called h (fits_short h.2.2)
  · exact judgeReply_uncalled (mt (hcalled source c).1 h) (payload_short hshort)
  · cases hd : decodeReply control payload with
    | none => exact judgeReply_unread f head control length low high hlen hd
    | some c =>
      refine judgeReply_refused f head control length low high hlen ?_
      have hfits := decodeReply_some hd
      obtain hcheck | hhead | hkind := hbad
      · exact .inl hcheck
      · exact .inr (getLsbD_seven_of_le hhead)
      · exfalso
        dsimp only at hfits
        generalize (control &&& 0x0F).toNat = kind at hfits hkind
        obtain ⟨rfl, rfl⟩ | ⟨rfl, hp⟩ | ⟨rfl, hp, hp'⟩ | ⟨rfl, rfl⟩ | ⟨rfl, hp⟩ := hfits
        · simp at hkind
        · obtain rfl | rfl := hp <;> simp at hkind
        · simp [hp] at hkind
          omega
        · simp at hkind
        · simp [hp] at hkind

/-! ### Reports (Table 12-5) -/

theorem le16_targetField (target : Option Handle) (l : Line) : le16 (targetField target l) =
    match target, l with
    | some h, _ => le16 h.number
    | none, .A => [0x00, 0x80]
    | none, .B => [0x01, 0x80] := by
  cases target <;> cases l <;> rfl

theorem nakCode_eq (x : Option NakReason) : nakCode x = match x with
    | none => 0
    | some .busy => 1
    | some .refused => 2 := by
  cases x with
  | none => rfl
  | some why => cases why <;> rfl

theorem linkBody_eq (n : LinkNotice) : linkBody n =
    le16 n.checkFailures ++ le16 n.framingFailures ++ le16 n.inboxOverruns ++
      match n.lastDiscarded with
      | none => [0, 0]
      | some q => [1, q] := by
  unfold linkBody
  cases n.lastDiscarded <;> rfl

/-- Settles O60: each body is the model's, and each source is written as the model writes it. -/
theorem reportBodiesFollowTheirTables : Obligations.ReportBodiesFollowTheirTables := by
  intro s
  refine ⟨fun r result hresult => ⟨rfl, rfl, ?_⟩, fun i => ⟨rfl, rfl, ?_⟩, fun k => ⟨rfl, rfl, rfl⟩,
    fun l => ⟨rfl, rfl, rfl⟩, fun l x hx => ⟨rfl, rfl, ?_⟩, rfl, rfl, linkBody_eq _⟩
  · show completionBody (s.record r) = _
    simp only [completionBody, hresult, le16_targetField, nakCode_eq]
    rfl
  · show nodeBody (s.handleOf i) (s.node i) = _
    rw [nodeBody, identityField_eq]
    rfl
  · show discoveryBody l (s.line l).discovery.lastResult = _
    rw [hx]
    rfl

end Sys2Proof.Machine

/-! The events of a line's receiver, what its characters do to the exchange, and which outcome each event
of an exchange fixes (R74 to R79, R120, R121, R135 to R143). -/

namespace Sys2Proof.Machine

/-! ### The receiver's events (Table 8-3) -/

theorem armedState_eq (rx : Level) :
    armedState rx = if rx = .dominant then .start else .searchArmed := by
  cases rx <;> rfl

theorem LineState.watched_iff (x : LineState) : x.watched = true ↔ x = .running ∨ x = .stopping := by
  cases x <;> decide

theorem runAfterLevel_eq (b : LineBlock) (v : Level) : runAfterLevel b v =
    if v = .dominant ∧ (b.guard.lineState = .running ∨ b.guard.lineState = .stopping) ∧
      b.pins.de = false
    then some (b.guard.stuckRun.getD (4 * charTime b.guard.params)) else none := by
  cases v with
  | recessive => rfl
  | dominant =>
    unfold runAfterLevel
    simp only [Bool.and_eq_true, LineState.watched_iff, Bool.not_eq_true', true_and]
    rfl

theorem LineBlock.levelChange_eq (b : LineBlock) (v : Level) : b.levelChange v = { b with
    pins := { b.pins with rx := v }
    receiver :=
      if b.receiver.state = .searchArmed ∧ v = .dominant then { b.receiver with state := .start }
      else b.receiver
    guard := { b.guard with
      stuckRun :=
        if v = .dominant ∧ (b.guard.lineState = .running ∨ b.guard.lineState = .stopping) ∧
          b.pins.de = false
        then some (b.guard.stuckRun.getD (4 * charTime b.guard.params)) else none } } := by
  simp only [levelChange, runAfterLevel_eq, Bool.and_eq_true, beq_iff_eq]

theorem armReceiver_eq (l : Line) (s : State) : armReceiver l s =
    if (s.line l).receiver.state = .searchUnarmed ∧ (s.line l).pins.rx = .recessive then
      s.setLine l { s.line l with receiver := { (s.line l).receiver with state := .searchArmed } }
    else s := by
  simp only [armReceiver, State.updLine_eq, Bool.and_eq_true, beq_iff_eq]
  split
  · rfl
  · exact State.setLine_line ..

/-- Settles O45: one equation for each event, where it applies and where it does not. -/
theorem receiverEventsMoveTheReceiver : Obligations.ReceiverEventsMoveTheReceiver := by
  intro s l hpin b g
  have hverify (noisy : Bool) : exec (.startVerified l noisy) s = .next (verifyStart l noisy s) :=
    outOfReset_high _ hpin
  have hreject : exec (.falseStart l) s = .next (rejectStart l s) := outOfReset_high _ hpin
  have harm : exec (.receiverArmed l) s = .next (armReceiver l s) := outOfReset_high _ hpin
  refine ⟨fun hstart => ⟨fun noisy => ?_, ?_⟩, fun hstart => ⟨fun noisy => ?_, ?_⟩,
    fun hunarmed hrx => ?_, fun hnot => ?_, fun v => ?_⟩
  · rw [hverify, verifyStart_start noisy hstart]; rfl
  · rw [hreject, rejectStart_start hstart, armedState_eq]
  · rw [hverify, verifyStart_ne noisy hstart]
  · rw [hreject, rejectStart_ne hstart]
  · rw [harm, armReceiver_eq, if_pos ⟨hunarmed, hrx⟩]
  · rw [harm, armReceiver_eq, if_neg]
    rintro ⟨hunarmed, hrx⟩
    obtain hnot | hdominant := hnot
    · exact hnot hunarmed
    · exact absurd (hdominant.symm.trans hrx) (by decide)
  · have hlevel : exec (.lineLevelChange l v) s = .next (s.updLine l fun b => b.levelChange v) := by
      show execLineLevelChange l v s = _
      rw [execLineLevelChange, hpin]
    rw [hlevel, State.updLine_eq, LineBlock.levelChange_eq]

/-! ### A completed character at the receiver (R137, R138) -/

theorem decideCharacter_good (n : Bool) (bits : Samples 10) :
    (decideCharacter n bits).kind = .good ↔ bits.value.getLsbD 9 = true := by
  simp only [decideCharacter]
  split
  · rename_i h; exact iff_of_true rfl h
  · rename_i h
    refine iff_of_false ?_ h
    split <;> exact (nomatch ·)

theorem decideCharacter_noisy (n : Bool) (bits : Samples 10) :
    (decideCharacter n bits).noisy = true ↔
      n = true ∨ ¬ (bits.s4 = bits.s5 ∧ bits.s5 = bits.s6) := by
  simp only [decideCharacter, Samples.disagree, Bool.or_eq_true, bne_iff_ne, ne_eq, not_and_or]

theorem stateAfterCharacter_eq (k : CharacterKind) (rx : Level) : stateAfterCharacter k rx =
    if k = .good then if rx = .dominant then .start else .searchArmed else .searchUnarmed := by
  cases k <;> cases rx <;> rfl

/-- The line whose receiver has completed a character, its engine as given. -/
def LineBlock.took (b : LineBlock) (c : ReceivedCharacter) (e : Engine) : LineBlock :=
  { b with
    engine := e
    receiver := ⟨if c.kind = .good then if b.pins.rx = .dominant then .start else .searchArmed
      else .searchUnarmed, false⟩
    guard := { b.guard with counters := { b.guard.counters with
      noisyCharacters := if c.noisy = true then satInc b.guard.counters.noisyCharacters
        else b.guard.counters.noisyCharacters } } }

theorem countCharacter_eq (l : Line) (c : ReceivedCharacter) (s : State) :
    countCharacter l c s = s.setLine l ((s.line l).took c (s.line l).engine) := by
  simp only [countCharacter, State.updLine_eq, stateAfterCharacter_eq]
  rfl

theorem State.setEngine_took (s : State) (l : Line) (b : LineBlock) (c : ReceivedCharacter)
    (e e' : Engine) : (s.setLine l (b.took c e)).setEngine l e' = s.setLine l (b.took c e') := by
  rw [State.setEngine_eq, State.line_setLine_self, State.setLine_setLine]
  rfl

theorem echoMatches_iff (sent : Byte × Bool) (c : ReceivedCharacter) :
    echoMatches sent c = true ↔ c.kind = .good ∧ sent = (c.data, c.mark) := by
  simp [echoMatches]

/-! ### The reply's characters (R76 to R78) -/

section
variable {l : Line} {s : State} {x : Exchange} {c : ReceivedCharacter}

theorem headCharacter_head (w : Timer) (hc : c.kind = .good) (hm : c.mark = true) :
    headCharacter l x w c s = s.setEngine l
      (.receiving x [c.data] (some (gapTime (s.line l).guard.params))) := by
  simp [headCharacter, hc, hm]

theorem headCharacter_other {w : Timer} (hc : c.kind = .good) (hm : c.mark = false) :
    headCharacter l x w c s = if w = none then fixOutcome l .noReply s else s := by
  cases w <;> simp [headCharacter, hc, hm]

theorem headCharacter_bad (w : Timer) (hc : c.kind ≠ .good) :
    headCharacter l x w c s = fixOutcome l .badReply s := by
  unfold headCharacter
  split
  · rename_i h; exact absurd h hc
  · rfl
  · rfl

theorem lastIsDue_iff (got : List Byte) : lastIsDue got = true ↔
    ∃ (head control n : Byte) (rest : List Byte),
      got = head :: control :: n :: rest ∧ rest.length = n.toNat + 1 := by
  unfold lastIsDue
  split
  · rename_i head control n rest
    simp only [List.length_cons, beq_iff_eq]
    constructor
    · exact fun h => ⟨head, control, n, rest, rfl, by omega⟩
    · rintro ⟨_, _, _, _, heq, h⟩
      cases heq
      omega
  · rename_i hne
    refine iff_of_false Bool.false_ne_true ?_
    rintro ⟨head, control, n, rest, rfl, -⟩
    exact hne _ _ _ _ rfl

variable {got : List Byte}

theorem collectCharacter_bad (h : c.kind ≠ .good ∨ c.mark = true) :
    collectCharacter l x got c s = fixOutcome l .badReply s := by
  have hbad : (c.kind != .good || c.mark) = true := by simpa using h
  simp [collectCharacter, hbad]

variable (hc : c.kind = .good) (hm : c.mark = false)
include hc hm

theorem collectCharacter_last (h : lastIsDue got = true) : collectCharacter l x got c s =
    fixOutcome l (judgeReply x.frame (got ++ [c.data])) s := by
  simp [collectCharacter, hc, hm, h]

theorem collectCharacter_tooLong (h : lastIsDue got = false) (hlen : got.length = 2)
    (hdata : 48 < c.data.toNat) : collectCharacter l x got c s = fixOutcome l .badReply s := by
  simp [collectCharacter, hc, hm, h, hlen, Config.payloadMaximum, hdata]

theorem collectCharacter_next (h : lastIsDue got = false)
    (hlen : got.length ≠ 2 ∨ c.data.toNat ≤ 48) : collectCharacter l x got c s =
      s.setEngine l (.receiving x (got ++ [c.data]) (some (gapTime (s.line l).guard.params))) := by
  have hnot : ¬ (got.length = 2 ∧ 48 < c.data.toNat) := by
    rintro ⟨hl, hd⟩
    obtain hlen | hlen := hlen
    · exact hlen hl
    · omega
  have hshort : (decide (got.length = 2) && decide (Config.payloadMaximum < c.data.toNat)) = false := by
    rw [← Bool.decide_and]
    exact decide_eq_false hnot
  simp [collectCharacter, hc, hm, h, hshort]

end

section
variable {l : Line} {s : State} {x : Exchange} (c : ReceivedCharacter)

theorem engineCharacter_idle (h : (s.line l).engine = .idle) : engineCharacter l c s = s := by
  simp [engineCharacter, h]

theorem engineCharacter_guard {o : ExchangeOutcome} {d : Duration}
    (h : (s.line l).engine = .guard x o d) : engineCharacter l c s = s := by
  simp [engineCharacter, h]

theorem engineCharacter_differs {n : Nat} (h : (s.line l).engine = .sending x n true) :
    engineCharacter l c s = s := by
  simp [engineCharacter, h]

theorem engineCharacter_echo {n : Nat} (h : (s.line l).engine = .sending x n false) :
    engineCharacter l c s = echoCharacter l x n c s := by
  simp [engineCharacter, h]

theorem engineCharacter_awaiting {w : Timer} (h : (s.line l).engine = .awaiting x w) :
    engineCharacter l c s = headCharacter l x w c s := by
  simp [engineCharacter, h]

theorem engineCharacter_receiving {got : List Byte} {t : Timer}
    (h : (s.line l).engine = .receiving x got t) :
    engineCharacter l c s = collectCharacter l x got c s := by
  simp [engineCharacter, h]

theorem contend_sending {n : Nat} {d : Bool} (h : (s.line l).engine = .sending x n d) :
    contend l s = fixContention l s := by
  simp [contend, h]

end

/-- REPLY_COMPLETE is the character itself, where the reply's last is due. -/
theorem completeReply_due {l : Line} {s : State} {x : Exchange} {got : List Byte} {t : Timer}
    (bits : Samples 10) (h : (s.line l).engine = .receiving x got t) (hdue : lastIsDue got = true) :
    completeReply l bits s = receiveCharacter l bits s := by
  simp [completeReply, h, hdue]

theorem completeReply_search {l : Line} {s : State} (bits : Samples 10)
    (h : (s.line l).receiver.state.inCharacter = false) : completeReply l bits s = s := by
  unfold completeReply
  split
  · rw [receiveCharacter_search bits h, ite_self]
  · rfl

/-- Settles O46: the receiver's side of the character, then the engine's by its state. -/
theorem lineCharactersReachTheEngine : Obligations.LineCharactersReachTheEngine := by
  intro s l bits hpin b data mark good noisy gap taken received now fixed
  let c := decideCharacter b.receiver.startNoisy bits
  have hgood : c.kind = .good ↔ good = true := decideCharacter_good ..
  have htook (e : Engine) : taken e = s.setLine l (b.took c e) := by
    have hnoisy : (c.noisy = true) = noisy := propext (decideCharacter_noisy ..)
    simp only [taken, LineBlock.took, hgood, hnoisy]
  have hcount : countCharacter l c s = taken b.engine := by rw [countCharacter_eq, htook]
  have hset (e e' : Engine) : (taken e).setEngine l e' = taken e' := by
    rw [htook, htook, State.setEngine_took]
  have hline (e : Engine) : (taken e).line l = b.took c e := by
    rw [htook, State.line_setLine_self]
  have hengine : ((taken b.engine).line l).engine = b.engine := by rw [hline]; rfl
  have hde (e : Engine) : ((taken e).line l).pins.de = b.pins.de := by rw [hline]; rfl
  have hgap : some (gapTime ((taken b.engine).line l).guard.params) = gap := by rw [hline]; rfl
  have hpin' (e : Engine) : (taken e).resetPin = .high := by
    rw [htook, State.resetPin_setLine]; exact hpin
  have hexec : received = .next (arbitrate (receiveCharacter l bits s)) := command_high _ hpin
  have hcomplete : exec (.replyComplete l bits) s = .next (arbitrate (completeReply l bits s)) :=
    command_high _ hpin
  refine ⟨fun hbits hstop => ?_, fun hin => ?_⟩
  · have hout : b.receiver.state.inCharacter = false :=
      Bool.eq_false_iff.2 fun h => (b.receiver.state.inCharacter_iff.1 h).elim hbits hstop
    rw [hexec, hcomplete, receiveCharacter_search bits hout, completeReply_search bits hout]
    exact ⟨rfl, rfl⟩
  have hin' : b.receiver.state.inCharacter = true := b.receiver.state.inCharacter_iff.2 hin
  have hrec : received = .next (arbitrate (engineCharacter l c (taken b.engine))) := by
    rw [hexec, receiveCharacter_inCharacter bits hin', ← hcount]
  have now_of {e : Engine} (h : engineCharacter l c (taken b.engine) = taken e) : now e := by
    show received = _
    rw [hrec, h]
  have fixed_of {o : ExchangeOutcome}
      (h : engineCharacter l c (taken b.engine) = fixOutcome l o (taken b.engine)) : fixed o := by
    show received = _
    rw [hrec, h]
  refine ⟨fun he => ?_, fun x o d he => ?_, fun x n he => ?_, fun x n sent he hsent => ?_,
    fun x n he hn => ?_, fun x w he => ?_, fun x got t he => ?_⟩
  · exact now_of ((engineCharacter_idle c (hengine.trans he)).trans (by rw [he]))
  · exact now_of ((engineCharacter_guard c (hengine.trans he)).trans (by rw [he]))
  · exact now_of ((engineCharacter_differs c (hengine.trans he)).trans (by rw [he]))
  · have hecho := engineCharacter_echo c (hengine.trans he)
    intro same
    have hsame : echoMatches sent c = true ↔ same :=
      (echoMatches_iff sent c).trans (and_congr hgood .rfl)
    refine ⟨fun hd => now_of ?_, fun hd hmatch => ?_, fun hd hdiffer => ?_⟩
    · rw [hecho]
      by_cases hmatch : same
      · rw [echoCharacter_match hsent (hsame.2 hmatch), if_pos ((hde _).trans hd), hset,
          if_pos hmatch]
      · rw [echoCharacter_differ hsent (Bool.eq_false_iff.2 (mt hsame.1 hmatch)),
          if_pos ((hde _).trans hd), hset, if_neg hmatch]
    · have hoff : ¬ ((taken b.engine).line l).pins.de = true := by simp [hde, hd]
      rw [hrec, hecho, echoCharacter_match hsent (hsame.2 hmatch), if_neg hoff, hset]
      exact (command_high _ (hpin' _)).symm
    · have hoff : ¬ ((taken b.engine).line l).pins.de = true := by simp [hde, hd]
      rw [hrec, hecho, echoCharacter_differ hsent (Bool.eq_false_iff.2 (mt hsame.1 hdiffer)),
        if_neg hoff, ← contend_sending (hengine.trans he)]
      exact (command_high _ (hpin' _)).symm
  · refine now_of ?_
    rw [engineCharacter_echo c (hengine.trans he), echoCharacter_done hn, he]
  · have hhead := engineCharacter_awaiting c (hengine.trans he)
    refine ⟨fun hg hm => now_of ?_, fun hg hm hw => now_of ?_, fun hg hm hw => fixed_of ?_,
      fun hg => fixed_of ?_⟩
    · rw [hhead, headCharacter_head w (hgood.2 hg) hm, hset, hgap]
      rfl
    · rw [hhead, headCharacter_other (hgood.2 hg) hm, if_neg hw, he]
    · rw [hhead, headCharacter_other (hgood.2 hg) hm, if_pos hw]
    · rw [hhead, headCharacter_bad w (by rw [ne_eq, hgood, hg]; decide)]
  · have hcollect := engineCharacter_receiving c (hengine.trans he)
    intro due
    have hdue : lastIsDue got = true ↔ due := lastIsDue_iff got
    refine ⟨fun h => fixed_of ?_, fun hg hm h => ⟨fixed_of ?_, ?_⟩, fun hg hm h =>
      ⟨fun hlen hdata => fixed_of ?_, fun hlen => now_of ?_⟩⟩
    · rw [hcollect, collectCharacter_bad (h.imp (fun hg => by rw [ne_eq, hgood, hg]; decide) id)]
    · rw [hcollect, collectCharacter_last (hgood.2 hg) hm (hdue.2 h)]
      rfl
    · rw [hcomplete, completeReply_due bits he (hdue.2 h), hexec]
    · rw [hcollect, collectCharacter_tooLong (hgood.2 hg) hm
        (Bool.eq_false_iff.2 (mt hdue.1 h)) hlen hdata]
    · rw [hcollect, collectCharacter_next (hgood.2 hg) hm (Bool.eq_false_iff.2 (mt hdue.1 h)) hlen,
        hset, hgap]
      rfl

end Sys2Proof.Machine

/-! Which outcome each event of an exchange fixes (R74, R75, R77, R78, R121, R141, R143), and what an
outcome makes of its target entry (R8 to R16). -/

namespace Sys2Proof.Machine

/-! ### The driver released -/

/-- A line whose driver is released, where it was on (R120, R132). -/
def LineBlock.driverOff (b : LineBlock) : LineBlock :=
  if b.pins.de = true then { b with
    pins := { b.pins with tx := .rest, de := false }
    guard := { b.guard with stuckRun := b.runOnRelease } }
  else b

theorem releaseDriver_off (l : Line) (s : State) :
    releaseDriver l s = s.setLine l (s.line l).driverOff := by
  simp only [releaseDriver, State.updLine_eq, LineBlock.driverOff, LineBlock.dominantRun_eq]

theorem openWindow_eq (l : Line) (x : Exchange) (s : State) : openWindow l x s =
    let p := (s.line l).guard.params
    s.setLine l { (s.line l).driverOff with
      engine := .awaiting x (some (p.replyTimeout.toNat * charTime p)) } := by
  rw [openWindow, releaseDriver_off, State.setEngine_eq, State.line_setLine_self,
    State.setLine_setLine]
  rfl

theorem pollTransmitted_eq (c : Carried) (s : State) : pollTransmitted c s = match c with
    | .poll h _ => s.setNode h.index { s.node h.index with morePending := false }
    | _ => s := by
  cases c <;> rfl

/-! ### Contention -/

/-- A fixed outcome leaves the state of the line, its parameters and, but for the outcome's own count, its
contention run. -/
theorem guard_fixOutcome {l : Line} {o : ExchangeOutcome} {s : State} {x : Exchange}
    (h : (s.line l).engine.unfixed = some x) :
    ((fixOutcome l o s).line l).guard.lineState = (s.line l).guard.lineState ∧
      ((fixOutcome l o s).line l).guard.contentionRun =
        contentionRunAfter o (s.line l).guard.contentionRun := by
  rw [fixOutcome_left h]
  obtain ⟨p, q, d, n, hline⟩ := tellOwners_line l (x := x) o
    ((s.line l).guard.lineState == .stopping) (s.setLine l ((s.line l).left x o))
  rw [hline, State.line_setLine_self]
  exact ⟨rfl, rfl⟩

/-- The third CONTENTION in a row faults a RUNNING or STOPPING line (R121). -/
theorem fixContention_eq {l : Line} {s : State} {x : Exchange}
    (h : (s.line l).engine.unfixed = some x) : fixContention l s =
      if 2 ≤ (s.line l).guard.contentionRun ∧
        ((s.line l).guard.lineState = .running ∨ (s.line l).guard.lineState = .stopping) then
        enterFaulted l .contention (fixOutcome l .contention s)
      else fixOutcome l .contention s := by
  obtain ⟨hstate, hrun⟩ := guard_fixOutcome (o := .contention) h
  have hthird : ((fixOutcome l .contention s).line l).guard.contentionRun ≥ 3 ↔
      2 ≤ (s.line l).guard.contentionRun := by
    rw [hrun]
    exact Nat.succ_le_succ_iff
  simp only [fixContention, Bool.and_eq_true, decide_eq_true_eq, hthird, hstate,
    LineState.watched_iff]

/-! ### The events of an exchange -/

theorem MasterFrame.isSendAll_eq_true {f : MasterFrame} {p : List Byte} (h : f = .sendAll p) :
    f.isSendAll = true := by
  subst h; rfl

theorem MasterFrame.isSendAll_eq_false {f : MasterFrame} (h : ∀ p : List Byte, f ≠ .sendAll p) :
    f.isSendAll = false := by
  cases f with
  | sendAll p => exact absurd rfl (h p)
  | _ => rfl

/-- Settles O47: each event where its engine state allows it. -/
theorem eventsFixOutcomes : Obligations.EventsFixOutcomes := by
  intro s l x hpin b watched fixed released
  have hframe : exec (.frameSent l) s = .next (arbitrate (sendFrame l s)) := command_high _ hpin
  have hcontend : exec (.echoContention l) s = .next (arbitrate (contend l s)) :=
    command_high _ hpin
  have hwindow : exec (.replyWindowExpiry l) s = .next (arbitrate (expireWindow l s)) :=
    command_high _ hpin
  have hgap : exec (.gapLimitExceeded l) s = .next (arbitrate (exceedGap l s)) :=
    command_high _ hpin
  refine ⟨fun n he => ⟨fun hn => ⟨fun p hp => ?_, fun hp => ?_⟩, fun hn => ?_, fun hn => ?_⟩,
    fun n he => ?_, fun n d he => ?_, fun d he => ⟨fun hbits hstop => ?_, fun hin => ?_⟩,
    fun got d he => ?_⟩
  · show exec (.frameSent l) s = _
    rw [hframe, sendFrame_matched he hn, endFrameSent_sendAll l s (MasterFrame.isSendAll_eq_true hp)]
  · rw [hframe, sendFrame_matched he hn,
      endFrameSent_window l s (MasterFrame.isSendAll_eq_false hp), openWindow_eq, pollTransmitted_eq]
    simp only [State.node_setLine]
    rfl
  · rw [hframe, sendFrame_lastEcho he hn, releaseDriver_off]; rfl
  · rw [hframe, sendFrame_early he hn]
  · rw [hframe, sendFrame_differs he]
  · have hx : (s.line l).engine.unfixed = some x := by rw [he]; rfl
    refine ⟨fun hnot => ?_, fun hrun hwatched => ?_⟩
    · show exec (.echoContention l) s = _
      rw [hcontend, contend_sending he, fixContention_eq hx, if_neg]
      rintro ⟨hrun, hwatched⟩
      obtain hnot | hnot := hnot
      · exact absurd hrun (Nat.not_le.2 hnot)
      · exact hnot hwatched
    · rw [hcontend, contend_sending he, fixContention_eq hx, if_pos ⟨hrun, hwatched⟩]
  · have hout : b.receiver.state.inCharacter = false :=
      Bool.eq_false_iff.2 fun h => (b.receiver.state.inCharacter_iff.1 h).elim hbits hstop
    show exec (.replyWindowExpiry l) s = _
    rw [hwindow, expireWindow, he]
    dsimp only
    rw [hout, if_neg Bool.false_ne_true]
  · have hin' : b.receiver.state.inCharacter = true := b.receiver.state.inCharacter_iff.2 hin
    rw [hwindow, expireWindow, he]
    dsimp only
    rw [hin', if_pos rfl, State.setEngine_eq]
  · show exec (.gapLimitExceeded l) s = _
    rw [hgap, exceedGap, he]

/-! ### The target entry (Table 1-2) -/

section
variable {f : MasterFrame} {o : ExchangeOutcome} {limit : Nat} {e : NodeEntry}

theorem entryOutcome_left (h : e.state = .free ∨ e.removalPending = true) :
    entryOutcome f o limit e = ⟨e, false, false⟩ := by
  have hleft : (e.removalPending || !e.held) = true := by
    obtain h | h := h <;> simp [h, NodeEntry.held]
  simp [entryOutcome, hleft]

variable (hs : e.state ≠ .free) (hr : e.removalPending = false)
include hs hr

theorem entryOutcome_held : entryOutcome f o limit e =
    match o with
    | .reply c =>
      let r := validReply f.restart e
      { r with entry := sequenceEffect f e c r.entry }
    | .noReply => miss limit e
    | .badReply => miss limit e
    | .aborted => ⟨if f.isPut then e.setRestart else e, false, false⟩
    | .contention => ⟨e, false, false⟩
    | .lineFault => ⟨e, false, false⟩
    | .sent => ⟨e, false, false⟩ := by
  have hheld : (e.removalPending || !e.held) = false := by simp [hr, NodeEntry.held, hs]
  simp only [entryOutcome, hheld, Bool.false_eq_true, if_false] <;> rfl

theorem entryOutcome_miss (h : o = .noReply ∨ o = .badReply) :
    entryOutcome f o limit e = miss limit e := by
  rw [entryOutcome_held hs hr]
  obtain rfl | rfl := h <;> rfl

theorem entryOutcome_reply (c : NodeReply) : entryOutcome f (.reply c) limit e =
    { validReply f.restart e with
      entry := sequenceEffect f e c (validReply f.restart e).entry } := by
  rw [entryOutcome_held hs hr]

end

/-- The reply's more flag (R16). -/
def NodeReply.more : NodeReply → Bool
  | .data _ m _ => m
  | .empty m => m
  | _ => false

theorem sequenceEffect_eq (f : MasterFrame) (before e : NodeEntry) (c : NodeReply) :
    sequenceEffect f before c e = { e with
      putToggle := if f.isPut = true ∧ c = .ack ∧ ¬ (f.restart = false ∧ before.restartPending = true)
        then !e.putToggle else e.putToggle
      morePending := e.morePending || c.more } := by
  cases c with
  | ack =>
    cases f <;> simp [sequenceEffect, MasterFrame.isPut, NodeReply.more, restartedInFlight,
      MasterFrame.restart]
    split <;> simp_all
  | data t m p => cases f <;> cases m <;> simp [sequenceEffect, NodeReply.more]
  | empty m => cases f <;> cases m <;> simp [sequenceEffect, NodeReply.more]
  | nak why => cases f <;> simp [sequenceEffect, NodeReply.more]
  | bid y => cases f <;> simp [sequenceEffect, NodeReply.more]

/-- Settles O49: held entries by the outcome's kind and the entry's state. -/
theorem entryOutcomesFollowTheirRules : Obligations.EntryOutcomesFollowTheirRules := by
  intro f o limit e becomes missed lost
  refine ⟨entryOutcome_left, fun hs hr => ⟨?_, ?_, fun ho => ?_, ?_⟩⟩
  · rintro (rfl | rfl | rfl) <;> exact entryOutcome_held hs hr
  · rintro rfl
    refine ⟨fun hput => ?_, fun hput => ?_⟩
    · show entryOutcome f .aborted limit e = _
      rw [entryOutcome_held hs hr, hput]; rfl
    · show entryOutcome f .aborted limit e = _
      rw [entryOutcome_held hs hr, hput]; rfl
  · have hmiss : entryOutcome f o limit e = miss limit e := entryOutcome_miss hs hr ho
    refine ⟨?_, ?_, fun hst hbelow => ?_, ?_⟩
    · rintro (hst | hst) <;> exact hmiss.trans (by simp only [miss, missed, hst])
    · rintro (hst | hst) hbelow <;>
        exact hmiss.trans (by simp only [miss, missed, hst, if_pos hbelow])
    · exact hmiss.trans (by simp only [miss, missed, hst, if_pos hbelow, NodeEntry.change])
    · rintro (hst | hst | hst) hlimit <;>
        exact hmiss.trans (by
          simp only [miss, missed, lost, hst, if_neg (Nat.not_lt.2 hlimit), NodeEntry.goLost,
            NodeEntry.setRestart, NodeEntry.change])
  · rintro c rfl
    intro late more counted answered
    have hreply := entryOutcome_reply (f := f) (limit := limit) hs hr c
    rw [sequenceEffect_eq] at hreply
    have hmore : c.more = more := by cases c <;> rfl
    rw [hmore] at hreply
    refine ⟨fun hst => hreply.trans (by simp only [validReply, counted, late, hst]),
      fun hst => hreply.trans (by simp only [validReply, answered, counted, late, hst]), ?_⟩
    rintro (hst | hst | hst) <;>
      exact hreply.trans (by
        simp only [validReply, answered, counted, late, hst, NodeEntry.change])

end Sys2Proof.Machine

/-! What the outcome of a POLL, PUT, TAKE or SEND_ALL does to its owners (R33 to R40, R82, R92 to R97,
Tables 2-3 and 5-3). -/

namespace Sys2Proof.Machine

/-! ### The target told, and the records aimed at a node now LOST -/

/-- What telling the target does: its entry, the queued records aimed at it if it is LOST, the queues. -/
theorem nodeTold_spec (l : Line) (i : EntryIndex) (f : MasterFrame) (o : ExchangeOutcome) (s : State) :
    let b := s.line l
    let r := entryOutcome f o b.guard.params.missLimit.toNat (s.node i)
    let hit (q : RecordIndex) : Bool := r.lost && (s.record q).aimedAt i
    let told := tellNode i f o l s
    let v := loseTransfers l i told.2 told.1
    (∀ j, v.node j = if j = i then r.told else s.node j) ∧
      (∀ q, v.record q = if q ∈ b.queued.filter hit then completedWith .nodeLost (s.record q)
        else s.record q) ∧
      v.line l = { b with
        urgent := b.urgent.filter fun q => !hit q
        normal := b.normal.filter fun q => !hit q } ∧
      v.reports = enqueueAll (r.sources i ++ (b.queued.filter hit).map Source.completion) s.reports ∧
      v.slots = s.slots := by
  intro b r hit told v
  have htold : told = ((s.setNode i r.told).withReports (enqueueAll (r.sources i) s.reports), r.lost) :=
    tellNode_eq i f o l s
  obtain ⟨hrecord, hline, hreports, hnodes, hslots, -⟩ := loseTransfers_spec l i told.2 told.1
  rw [htold] at hrecord hline hreports hnodes hslots
  simp only [State.record_withReports, State.record_setNode, State.line_withReports,
    State.line_setNode, State.reports_withReports, State.slots_withReports, State.slots_setNode]
    at hrecord hline hreports hslots
  have hv : v = loseTransfers l i told.2 told.1 := rfl
  rw [htold] at hv
  refine ⟨fun j => ?_, fun q => ?_, ?_, ?_, ?_⟩
  · have hnode : v.node j = ((s.setNode i r.told).withReports
        (enqueueAll (r.sources i) s.reports)).node j := by
      rw [hv]
      simp only [State.node, hnodes]
    rw [hnode, State.node_withReports, State.node_setNode]
  · rw [hv, hrecord]
  · rw [hv, hline]
  · rw [hv, hreports, enqueueAll_append]
  · rw [hv, hslots]

theorem LineBlock.left_fields (b : LineBlock) (x : Exchange) (o : ExchangeOutcome) :
    (b.left x o).urgent = b.urgent ∧ (b.left x o).normal = b.normal ∧
      (b.left x o).guard.params = b.guard.params ∧
      (b.left x o).discovery = b.discovery ∧
      (b.left x o).guard.counters.duplicates = b.guard.counters.duplicates :=
  ⟨rfl, rfl, rfl, rfl, by cases o <;> rfl⟩

/-! ### A POLL's outcome -/

/-- A POLL's outcome: the target told, then the store. -/
theorem fixOutcome_poll {l : Line} {s : State} {f : MasterFrame} {h : Handle} {k : Option SlotIndex}
    (o : ExchangeOutcome) (hx : (s.line l).engine.unfixed = some ⟨f, .poll h k⟩) :
    let w := s.setLine l ((s.line l).left ⟨f, .poll h k⟩ o)
    let told := tellNode h.index f o l w
    fixOutcome l o s =
      tellStore l h.index k f o (s.node h.index) (loseTransfers l h.index told.2 told.1) := by
  intro w told
  rw [fixOutcome_left hx]
  simp only [tellOwners, State.node_setLine]
  rfl

/-- Rewriting an entry that alone may differ. -/
theorem node_setNode_of_differs {s t : State} {i : EntryIndex} {e : NodeEntry}
    (h : ∀ j, t.node j = if j = i then e else s.node j) (e1 : NodeEntry) (j : EntryIndex) :
    (t.setNode i e1).node j = if j = i then e1 else s.node j := by
  rw [State.node_setNode]
  split
  · rfl
  · rename_i hj; rw [h, if_neg hj]

theorem keepAtNode_of_differs {s t : State} {i : EntryIndex} {e : NodeEntry}
    (h : ∀ j, t.node j = if j = i then e else s.node j) (j : EntryIndex) :
    (keepAtNode i t).node j = if j = i then { e with morePending := true } else s.node j := by
  rw [keepAtNode, node_setNode_of_differs h, h, if_pos rfl]

theorem storeData_writes (k : SlotIndex) (i : EntryIndex) (t : Bool) (p : List Byte) (s : State) :
    storeData k i t p s =
      ((s.setSlot k { s.slot k with state := .filled, payload := p }).setNode i
        { s.node i with acceptedToggle := t }).withReports (enqueueAll [.data k] s.reports) := by
  rw [storeData, enqueue_withReports]
  rfl

/-- Settles O50: the target told, then the slot by the store's table. -/
theorem pollOutcomeReachesItsOwners : Obligations.PollOutcomeReachesItsOwners := by
  intro s l h slot a ack hold restart o b f e r told hit u duplicates common freed hx _
  let w := s.setLine l (b.left ⟨f, .poll h slot⟩ o)
  obtain ⟨hurgent, hnormal, hparams, -, hdup⟩ := b.left_fields ⟨f, .poll h slot⟩ o
  have hspec := nodeTold_spec l h.index f o w
  simp only [w, State.line_setLine_self, State.node_setLine, State.record_setLine, hparams, hurgent,
    hnormal, State.reports_setLine, State.slots_setLine, LineBlock.queued] at hspec
  obtain ⟨hnode, hrecord, hline, hreports, hslots⟩ := hspec
  have hu := fixOutcome_poll o hx
  set v := loseTransfers l h.index (tellNode h.index f o l w).2 (tellNode h.index f o l w).1 with hv
  change u = tellStore l h.index slot f o e v at hu
  have hdupv : duplicates v = duplicates s := by
    show (v.line l).guard.counters.duplicates = _
    rw [hline]; exact hdup
  have common_of {t : State} {e1 : NodeEntry} {sources : List Source} (ht : u = t)
      (hn : ∀ i, t.node i = if i = h.index then e1 else s.node i) (hr : t.records = v.records)
      (hq : (t.line l).urgent = (v.line l).urgent ∧ (t.line l).normal = (v.line l).normal)
      (hs : t.reports = enqueueAll sources v.reports) : common e1 sources := by
    refine ⟨fun i => by rw [ht, hn], fun q => ?_, ?_, ?_, ?_⟩
    · have hq : u.record q = v.record q := by rw [ht]; simp only [State.record, hr]
      rw [hq, hrecord]; rfl
    · rw [ht, hq.1, hline]
    · rw [ht, hq.2, hline]
    · rw [ht, hs, hreports]; exact (enqueueAll_append ..).symm
  obtain ⟨hfnodes, hfrecords, hfreports, hfline, -⟩ := freeSlot_kept slot v
  have hfnode (i : EntryIndex) : (freeSlot slot v).node i = v.node i := by
    simp only [State.node, hfnodes]
  have hslotv (k : SlotIndex) : v.slot k = s.slot k := by simp only [State.slot, hslots]
  have hfslot (k : SlotIndex) : (freeSlot slot v).slot k =
      if slot = some k then { s.slot k with state := .free } else s.slot k := by
    rw [freeSlot_slot, hslotv]
  have free_case (hu : u = freeSlot slot v) :
      common told [] ∧ freed ∧ duplicates u = duplicates s := by
    refine ⟨common_of hu (fun i => (hfnode i).trans (hnode i)) hfrecords ?_ hfreports,
      fun k => by rw [hu, hfslot], ?_⟩
    · rw [hfline]; exact ⟨rfl, rfl⟩
    · rw [hu]
      show ((freeSlot slot v).line l).guard.counters.duplicates = _
      rw [hfline]; exact hdupv
  refine ⟨fun hnot => free_case (hu.trans (tellStore_free l h.index slot f v hnot)), ?_⟩
  rintro hr t m p rfl late
  have hlate : restartedInFlight f e = true ↔ late := by
    simp only [restartedInFlight, MasterFrame.restart, f, late, Bool.and_eq_true,
      Bool.not_eq_true', and_comm]
  have hself : v.node h.index = told := (hnode h.index).trans (if_pos rfl)
  refine ⟨fun hl => ?_, fun hl ht => ?_, fun hl ht => ⟨?_, ?_⟩⟩
  · have hu := hu.trans (tellStore_late l h.index slot v hr (hlate.2 hl))
    refine ⟨common_of hu (keepAtNode_of_differs fun i => (hfnode i).trans (hnode i)) hfrecords ?_
      hfreports, fun k => ?_, ?_⟩
    · rw [keepAtNode, State.line_setNode, hfline]; exact ⟨rfl, rfl⟩
    · rw [hu, keepAtNode, State.slot_setNode, hfslot]
    · rw [hu]
      show ((keepAtNode h.index (freeSlot slot v)).line l).guard.counters.duplicates = _
      rw [keepAtNode, State.line_setNode, hfline]; exact hdupv
  · have hl' := Bool.eq_false_iff.2 (mt hlate.1 hl)
    have hu := hu.trans (tellStore_duplicate l h.index slot v hr hl' ht)
    rw [State.updCounters_eq, hfline] at hu
    refine ⟨common_of hu (fun i => ?_) ?_ ?_ ?_, fun k => ?_, ?_⟩
    · rw [State.node_setLine, hfnode, hnode]; rfl
    · rw [State.records_setLine, hfrecords]
    · rw [State.line_setLine_self]; exact ⟨rfl, rfl⟩
    · rw [State.reports_setLine, hfreports]; rfl
    · rw [hu, State.slot_setLine, hfslot]
    · rw [hu]
      show ((State.setLine _ l _).line l).guard.counters.duplicates = _
      rw [State.line_setLine_self]
      exact congrArg satInc hdupv
  · rintro rfl
    have hl' := Bool.eq_false_iff.2 (mt hlate.1 hl)
    have hu := hu.trans (tellStore_noSlot l h.index v hr hl' ht)
    refine ⟨common_of hu (keepAtNode_of_differs hnode) rfl ?_ rfl, ?_, ?_⟩
    · rw [keepAtNode, State.line_setNode]; exact ⟨rfl, rfl⟩
    · rw [hu, keepAtNode, State.slots_setNode, hslots]
    · rw [hu]
      show ((keepAtNode h.index v).line l).guard.counters.duplicates = _
      rw [keepAtNode, State.line_setNode]; exact hdupv
  · rintro k rfl
    have hl' := Bool.eq_false_iff.2 (mt hlate.1 hl)
    have hu := hu.trans (tellStore_stored l h.index v hr hl' ht k)
    rw [storeData_writes, hself, hslotv] at hu
    refine ⟨common_of hu (fun i => (State.node_withReports ..).trans
      (node_setNode_of_differs (fun j => (State.node_setSlot ..).trans (hnode j)) _ i)) rfl ?_ rfl,
      fun j => ?_, ?_⟩
    · rw [State.line_withReports, State.line_setNode, State.line_setSlot]; exact ⟨rfl, rfl⟩
    · rw [hu, State.slot_withReports, State.slot_setNode, State.slot_setSlot, hslotv]
    · rw [hu]
      show ((State.withReports _ _).line l).guard.counters.duplicates = _
      rw [State.line_withReports, State.line_setNode, State.line_setSlot]; exact hdupv

/-! ### A transfer's outcome -/

/-- The state in which a transfer's target has been told. -/
def toldTarget (l : Line) (f : MasterFrame) (o : ExchangeOutcome) (target : Option Handle) (s : State) :
    State :=
  match target with
  | some h => (tellNode h.index f o l s).1
  | none => s

/-- The records aimed at a transfer's target complete where it is LOST. -/
def loseTarget (l : Line) (target : Option Handle) (lost : Bool) (s : State) : State :=
  match target with
  | some h => loseTransfers l h.index lost s
  | none => s

/-- A transfer's outcome: the target told, then the record, then the records aimed at a LOST target. -/
theorem tellOwners_record {l : Line} {x : Exchange} {r : RecordIndex} {target : Option Handle}
    (hc : x.carried = .transfer r target) (o : ExchangeOutcome) (stopping : Bool) (s : State) :
    let effect (h : Handle) : EntryEffect :=
      entryOutcome x.frame o (s.line l).guard.params.missLimit.toNat (s.node h.index)
    let gone := target.any fun h => (s.node h.index).removalPending
    let lost := target.any fun h => (effect h).lost
    tellOwners l x o stopping s =
      loseTarget l target lost (tellRecord r o gone lost stopping (toldTarget l x.frame o target s)) := by
  cases target with
  | none => simp only [tellOwners, hc]; rfl
  | some h => simp only [tellOwners, hc, tellNode_eq, toldTarget]; rfl

theorem toldTarget_spec (l : Line) (f : MasterFrame) (o : ExchangeOutcome) (target : Option Handle)
    (s : State) :
    let effect (h : Handle) : EntryEffect :=
      entryOutcome f o (s.line l).guard.params.missLimit.toNat (s.node h.index)
    let t := toldTarget l f o target s
    (∀ i, t.node i = match target with
      | some h => if i = h.index then (effect h).told else s.node i
      | none => s.node i) ∧
      (∀ q, t.record q = s.record q) ∧ (∀ m, t.line m = s.line m) ∧
      t.reports = enqueueAll
        ((target.filter fun h => (effect h).notice).map fun h => Source.node h.index).toList
        s.reports := by
  intro effect t
  cases target with
  | none => exact ⟨fun _ => rfl, fun _ => rfl, fun _ => rfl, rfl⟩
  | some h =>
    have ht : t = (s.setNode h.index (effect h).told).withReports
        (enqueueAll ((effect h).sources h.index) s.reports) := by
      simp only [t, toldTarget, tellNode_eq]; rfl
    rw [ht]
    refine ⟨fun i => by rw [State.node_withReports, State.node_setNode], fun q => by simp,
      fun m => by simp, ?_⟩
    rw [State.reports_withReports, EntryEffect.sources]
    cases hn : (effect h).notice <;> simp [hn, Option.filter]

theorem loseTarget_kept (l : Line) (target : Option Handle) (s : State) :
    loseTarget l target false s = s := by
  cases target <;> rfl

theorem loseTarget_spec (l : Line) (target : Option Handle) (lost : Bool) (s : State) :
    let b := s.line l
    let hit (q : RecordIndex) : Bool := lost && target.any fun h => (s.record q).aimedAt h.index
    let u := loseTarget l target lost s
    (∀ q, u.record q = if q ∈ b.queued.filter hit then completedWith .nodeLost (s.record q)
      else s.record q) ∧
      (u.line l).urgent = b.urgent.filter (fun q => !hit q) ∧
      (u.line l).normal = b.normal.filter (fun q => !hit q) ∧
      u.reports = enqueueAll ((b.queued.filter hit).map Source.completion) s.reports ∧
      u.nodes = s.nodes := by
  cases target with
  | none => simp [loseTarget]
  | some h =>
    obtain ⟨hrecord, hline, hreports, hnodes, -, -⟩ := loseTransfers_spec l h.index lost s
    exact ⟨hrecord, by rw [loseTarget, hline]; rfl, by rw [loseTarget, hline]; rfl, hreports, hnodes⟩

/-- Only a target that is not on its way out is made LOST. -/
theorem not_gone_of_lost {f : MasterFrame} {o : ExchangeOutcome} {limit : Nat} {target : Option Handle}
    {s : State}
    (h : (target.any fun h => (entryOutcome f o limit (s.node h.index)).lost) = true) :
    (target.any fun h => (s.node h.index).removalPending) = false := by
  cases target with
  | none => rfl
  | some h' =>
    refine Bool.eq_false_iff.2 fun hgone => ?_
    have hleft := entryOutcome_left (f := f) (o := o) (limit := limit) (.inr hgone)
    have hlost : (entryOutcome f o limit (s.node h'.index)).lost = true := h
    rw [hleft] at hlost
    cases hlost

theorem attempted_eq (x : TransferRecord) (o : ExchangeOutcome) : x.attempted o = { x with
    attempts := if o ≠ .contention ∧ o ≠ .lineFault ∧ o ≠ .aborted then x.attempts + 1
      else x.attempts } := by
  cases o <;> simp [TransferRecord.attempted, ExchangeOutcome.counts]

/-! ### Dispositions (Table 2-3) -/

section
variable {d : Disposition} (gone stopping : Bool)

theorem override_complete (result : TransferResult) (data : Option (List Byte))
    (nak : Option NakReason) :
    (Disposition.complete result data nak).override gone false stopping =
      .complete result data nak := by
  cases gone <;> cases stopping <;> rfl

theorem override_lost : d.override false true stopping = .complete .nodeLost none none := rfl

variable (hd : d = .toTail ∨ d = .toHead)
include hd

theorem override_gone : d.override true false stopping = .complete .nodeGone none none := by
  obtain rfl | rfl := hd <;> rfl

theorem override_stopping : d.override false false true = .complete .aborted none none := by
  obtain rfl | rfl := hd <;> rfl

end

section
variable {x : TransferRecord} {o : ExchangeOutcome}

/-- What a BUSY, a bad reply or no reply gives: another try within the budget, else the end. -/
theorem dispose_again {result : TransferResult} {nak : Option NakReason}
    (h : o = .reply (.nak .busy) ∧ result = .busy ∧ nak = some .busy ∨
      (o = .noReply ∨ o = .badReply) ∧ result = .noAnswer ∧ nak = none) :
    (x.retryBudget < x.attempts → x.dispose o = .complete result none nak) ∧
      (x.attempts ≤ x.retryBudget → x.dispose o = .toTail) := by
  obtain ⟨rfl, rfl, rfl⟩ | ⟨rfl | rfl, rfl, rfl⟩ := h <;>
    exact ⟨fun h => if_neg (Nat.not_le.2 h), fun h => if_pos h⟩

end

/-! ### Where a record goes (Table 2-3) -/

section
variable {r : RecordIndex} {o : ExchangeOutcome} {gone lost stopping : Bool} {s : State}

theorem tellRecord_completes {result : TransferResult} {data : Option (List Byte)}
    {nak : Option NakReason} (hd : (((s.record r).attempted o).dispose o).override gone lost stopping =
      .complete result data nak) :
    tellRecord r o gone lost stopping s =
      (s.setRecord r (completedWith result
        { (s.record r).attempted o with replyData := data, nakReason := nak })).withReports
          (enqueueAll [.completion r] s.reports) := by
  rw [tellRecord_eq]
  simp only [hd]

theorem tellRecord_toTail (hd : (((s.record r).attempted o).dispose o).override gone lost stopping =
    .toTail) : tellRecord r o gone lost stopping s =
      (s.setRecord r { (s.record r).attempted o with state := .queued }).setLine (s.record r).line
        ((s.line (s.record r).line).withTail (s.record r).priority r) := by
  rw [tellRecord_eq]
  simp only [hd, queueTail_eq, State.record_setRecord_self, State.line_setRecord] <;> rfl

theorem tellRecord_toHead (hd : (((s.record r).attempted o).dispose o).override gone lost stopping =
    .toHead) : tellRecord r o gone lost stopping s =
      (s.setRecord r { (s.record r).attempted o with state := .queued }).setLine (s.record r).line
        ((s.line (s.record r).line).withHead (s.record r).priority r) := by
  rw [tellRecord_eq]
  simp only [hd, queueHead_eq, State.record_setRecord_self, State.line_setRecord] <;> rfl

end

theorem LineBlock.queues_withTail (b : LineBlock) (p : Priority) (r : RecordIndex) :
    (b.withTail p r).urgent = (if p = .urgent then b.urgent ++ [r] else b.urgent) ∧
      (b.withTail p r).normal = if p = .normal then b.normal ++ [r] else b.normal := by
  cases p <;> exact ⟨rfl, rfl⟩

theorem LineBlock.queues_withHead (b : LineBlock) (p : Priority) (r : RecordIndex) :
    (b.withHead p r).urgent = (if p = .urgent then r :: b.urgent else b.urgent) ∧
      (b.withHead p r).normal = if p = .normal then r :: b.normal else b.normal := by
  cases p <;> exact ⟨rfl, rfl⟩

/-- A record outside the queues completes; then those of the queues that are aimed at a LOST target do. -/
theorem loseTarget_completed {l : Line} {r : RecordIndex} {s : State}
    (hout : ∀ q ∈ (s.line l).queued, q ≠ r) (target : Option Handle) (lost : Bool)
    (y : TransferRecord) :
    let b := s.line l
    let hit (q : RecordIndex) : Bool := lost && target.any fun h => (s.record q).aimedAt h.index
    let u := loseTarget l target lost
      ((s.setRecord r y).withReports (enqueueAll [.completion r] s.reports))
    (∀ q, u.record q = if q = r then y
      else if q ∈ b.queued.filter hit then completedWith .nodeLost (s.record q) else s.record q) ∧
      (u.line l).urgent = b.urgent.filter (fun q => !hit q) ∧
      (u.line l).normal = b.normal.filter (fun q => !hit q) ∧
      u.reports = enqueueAll ([.completion r] ++ (b.queued.filter hit).map Source.completion)
        s.reports := by
  intro b hit u
  let t := (s.setRecord r y).withReports (enqueueAll [.completion r] s.reports)
  have ht (q : RecordIndex) : t.record q = if q = r then y else s.record q := by
    rw [State.record_withReports, State.record_setRecord]
  have hline : t.line l = b := State.line_setRecord s r y l
  obtain ⟨hrecord, hurgent, hnormal, hreports, -⟩ := loseTarget_spec l target lost t
  rw [hline] at hrecord hurgent hnormal hreports
  have hhit (q : RecordIndex) (hq : q ∈ b.queued) :
      (lost && target.any fun h => (t.record q).aimedAt h.index) = hit q := by
    rw [ht, if_neg (hout q hq)]
  have hqueued : b.queued.filter (fun q => lost && target.any fun h =>
      (t.record q).aimedAt h.index) = b.queued.filter hit := List.filter_congr hhit
  refine ⟨fun q => ?_, hurgent.trans (List.filter_congr fun q hq => ?_),
    hnormal.trans (List.filter_congr fun q hq => ?_), ?_⟩
  · refine (hrecord q).trans ?_
    rw [hqueued, ht]
    by_cases hq : q = r
    · subst hq
      have hnot : q ∉ b.queued.filter hit := fun hmem => hout q (List.mem_filter.1 hmem).1 rfl
      rw [if_neg hnot, if_pos rfl, if_pos rfl]
    · rw [if_neg hq, if_neg hq]
  · exact congrArg (!·) (hhit q (List.mem_append_left _ hq))
  · exact congrArg (!·) (hhit q (List.mem_append_right _ hq))
  · rw [hqueued] at hreports
    exact hreports.trans (enqueueAll_append [.completion r] _ _).symm

/-- The record of an unfixed transfer is in flight on its line, so in neither queue. -/
theorem PoolOk.flying {s : State} (hpool : PoolOk s) {l : Line} {f : MasterFrame} {r : RecordIndex}
    {target : Option Handle} (hx : (s.line l).engine.unfixed = some ⟨f, .transfer r target⟩) :
    (s.record r).line = l ∧ ∀ q ∈ (s.line l).queued, q ≠ r := by
  obtain ⟨-, -, -, -, hflying⟩ := hpool.queuesOk l
  obtain ⟨hflight, hline⟩ := hflying r (by
    show (s.line l).engine.unfixed.bind _ = _
    rw [hx]; rfl)
  refine ⟨hline, ?_⟩
  rintro q hq rfl
  have hnot (p : Priority) : q ∉ (s.line l).queue p := hpool.notQueued (by rw [hflight]; decide) l p
  exact (List.mem_append.1 hq).elim (hnot .urgent) (hnot .normal)

/-- A transfer's outcome at a line. -/
theorem fixOutcome_transfer {l : Line} {s : State} {f : MasterFrame} {r : RecordIndex}
    {target : Option Handle} (o : ExchangeOutcome)
    (hx : (s.line l).engine.unfixed = some ⟨f, .transfer r target⟩) :
    let effect (h : Handle) : EntryEffect :=
      entryOutcome f o (s.line l).guard.params.missLimit.toNat (s.node h.index)
    let gone := target.any fun h => (s.node h.index).removalPending
    let lost := target.any fun h => (effect h).lost
    fixOutcome l o s = loseTarget l target lost (tellRecord r o gone lost
      ((s.line l).guard.lineState == .stopping)
      (toldTarget l f o target (s.setLine l ((s.line l).left ⟨f, .transfer r target⟩ o)))) := by
  intro effect gone lost
  rw [fixOutcome_left hx, tellOwners_record (x := ⟨f, .transfer r target⟩) rfl]
  simp only [State.line_setLine_self, State.node_setLine]
  rfl

/-- Settles O51: the disposition, overridden, either completes the record or puts it back in its queue. -/
theorem transferOutcomeReachesItsOwners : Obligations.TransferOutcomeReachesItsOwners := by
  intro s l f r target o b x effect gone lost notices hit counts n u completes requeues stays retries
    hpool hx
  obtain ⟨hrline, hout⟩ := hpool.flying hx
  -- the state in which the target has been told
  let ex : Exchange := ⟨f, .transfer r target⟩
  let stopping := b.guard.lineState == .stopping
  let t := toldTarget l f o target (s.setLine l (b.left ex o))
  obtain ⟨-, -, hparams, -, -⟩ := b.left_fields ex o
  obtain ⟨hnode, htold, hline, hreports⟩ :=
    toldTarget_spec l f o target (s.setLine l (b.left ex o))
  simp only [State.line_setLine_self, State.node_setLine, State.record_setLine, hparams,
    State.reports_setLine] at hnode htold hreports
  have hrecord (q : RecordIndex) : t.record q = s.record q := htold q
  have htline : t.line l = b.left ex o := (hline l).trans (State.line_setLine_self ..)
  have hu : u = loseTarget l target lost (tellRecord r o gone lost stopping t) :=
    fixOutcome_transfer o hx
  have hx' : t.record r = x := hrecord r
  let y := x.attempted o
  have hy : y = { x with attempts := n } := attempted_eq x o
  -- the ways a record can go
  have completes_of {result : TransferResult} {data : Option (List Byte)} {nak : Option NakReason}
      (hd : (y.dispose o).override gone lost stopping = .complete result data nak) :
      completes result data nak := by
    have htell := tellRecord_completes (r := r) (o := o) (s := t) (by rw [hx']; exact hd)
    obtain ⟨h1, h2, h3, h4⟩ := loseTarget_completed (l := l) (r := r) (s := t)
      (by rw [htline]; exact hout) target lost
      (completedWith result { y with replyData := data, nakReason := nak })
    rw [htell, hx'] at hu
    rw [← hu] at h1 h2 h3 h4
    rw [htline] at h1 h2 h3 h4
    simp only [hrecord, hy] at h1 h2 h3 h4
    refine ⟨h1, h2, h3, h4.trans ?_⟩
    rw [hreports, ← enqueueAll_append, List.append_assoc]
    rfl
  have requeues_of (hlost : lost = false) {urgent normal : List RecordIndex} {b1 : LineBlock}
      (htell : tellRecord r o gone lost stopping t =
        (t.setRecord r { y with state := .queued }).setLine l b1)
      (hb : b1.urgent = (if x.priority = .urgent then urgent else b.urgent) ∧
        b1.normal = if x.priority = .normal then normal else b.normal) :
      requeues urgent normal := by
    rw [htell, hlost, loseTarget_kept] at hu
    refine ⟨fun q => ?_, ?_, ?_, ?_⟩
    · rw [hu, State.record_setLine, State.record_setRecord, hy, hrecord]
    · rw [hu, State.line_setLine_self]; exact hb.1
    · rw [hu, State.line_setLine_self]; exact hb.2
    · rw [hu, State.reports_setLine, State.reports_setRecord, hreports]
  have toTail_of (hlost : lost = false) (hd : (y.dispose o).override gone lost stopping = .toTail) :
      requeues (b.urgent ++ [r]) (b.normal ++ [r]) := by
    have htell := tellRecord_toTail (r := r) (o := o) (s := t) (by rw [hx']; exact hd)
    rw [hx', hrline, htline] at htell
    exact requeues_of hlost htell (LineBlock.queues_withTail ..)
  have toHead_of (hlost : lost = false) (hd : (y.dispose o).override gone lost stopping = .toHead) :
      requeues (r :: b.urgent) (r :: b.normal) := by
    have htell := tellRecord_toHead (r := r) (o := o) (s := t) (by rw [hx']; exact hd)
    rw [hx', hrline, htline] at htell
    exact requeues_of hlost htell (LineBlock.queues_withHead ..)
  have stays_of (hlost : lost = false) {again : Prop}
      (hd : y.dispose o = .toTail ∨ y.dispose o = .toHead)
      (hagain : (y.dispose o).override gone lost stopping = y.dispose o → again) : stays again := by
    refine ⟨fun hgone => completes_of ?_, fun hgone hstop => completes_of ?_,
      fun hgone hstop => hagain ?_⟩
    · rw [hgone, hlost]; exact override_gone stopping hd
    · have hstopping : stopping = true := beq_iff_eq.2 hstop
      rw [hgone, hlost, hstopping]; exact override_stopping hd
    · have hstopping : stopping = false := beq_eq_false_iff_ne.2 hstop
      rw [hgone, hlost, hstopping]; rfl
  have ends_of (hlost : lost = false) {result : TransferResult} {data : Option (List Byte)}
      {nak : Option NakReason} (hd : y.dispose o = .complete result data nak) :
      completes result data nak :=
    completes_of (by rw [hd, hlost]; exact override_complete gone stopping result data nak)
  have retries_of (hlost : lost = false) {result : TransferResult} {nak : Option NakReason}
      (h : o = .reply (.nak .busy) ∧ result = .busy ∧ nak = some .busy ∨
        (o = .noReply ∨ o = .badReply) ∧ result = .noAnswer ∧ nak = none) : retries result nak := by
    obtain ⟨hend, hagain⟩ := dispose_again (x := y) h
    rw [hy] at hend hagain
    refine ⟨fun hover => ends_of hlost ?_, fun hwithin => ?_⟩
    · rw [hy]; exact hend hover
    · have hd : y.dispose o = .toTail := by rw [hy]; exact hagain hwithin
      exact stays_of hlost (.inl hd) fun hsame => toTail_of hlost (hsame.trans hd)
  refine ⟨fun i => ?_, fun hlost => completes_of ?_, fun hlost => ⟨?_, ?_, ?_, ?_, fun ho => ?_, ?_,
    fun ho => ?_⟩⟩
  · have hi : u.node i = t.node i := by
      obtain ⟨-, -, hnodes, -⟩ := tellRecord_line r o gone lost stopping t
      obtain ⟨-, -, -, -, hkept⟩ := loseTarget_spec l target lost (tellRecord r o gone lost stopping t)
      simp only [hu, State.node, hkept, hnodes]
    exact hi.trans (hnode i)
  · rw [hlost, show gone = false from not_gone_of_lost hlost]
    exact override_lost stopping
  · rintro (rfl | rfl) <;> exact ends_of hlost rfl
  · rintro t m p rfl; exact ends_of hlost rfl
  · rintro rfl; exact ends_of hlost rfl
  · rintro rfl; exact retries_of hlost (.inl ⟨rfl, rfl, rfl⟩)
  · exact retries_of hlost (.inr ⟨ho, rfl, rfl⟩)
  · rintro rfl; exact ends_of hlost rfl
  · have hd : y.dispose o = .toHead := by obtain rfl | rfl := ho <;> rfl
    exact stays_of hlost (.inr hd) fun hsame => toHead_of hlost (hsame.trans hd)

end Sys2Proof.Machine

/-! Discovery: what the outcomes of INVITE and ASSIGN do, and how a step goes on (R22, R23, R102 to R113,
Table 6-2). -/

namespace Sys2Proof.Machine

/-! ### The range on top of the stack (R104, R105, R109, R110) -/

section
variable {d : Discovery} {top : IdRange} {rest : List IdRange} (h : d.stack = top :: rest)
include h

theorem collision_splits (hlen : top.length < 32) :
    d.collision = { d with stack := top.zeroHalf :: top.oneHalf :: rest } := by
  simp [Discovery.collision, h, hlen]

theorem collision_clashes (hlen : 32 ≤ top.length) :
    d.collision = { d with stack := rest, clashes := satInc d.clashes } := by
  simp [Discovery.collision, h, Nat.not_lt.2 hlen]

theorem inviteOutcome_noReply : d.inviteOutcome .noReply = { d with stack := rest } := by
  simp [Discovery.inviteOutcome, h]

theorem inviteOutcome_bid (y : Identity) : d.inviteOutcome (.reply (.bid y)) =
    if y >>> (32 - top.length) = top.value >>> (32 - top.length) then { d with bid := some y }
    else d.collision := by
  simp only [Discovery.inviteOutcome, h, IdRange.matchesId, beq_iff_eq]

theorem bound_stack : d.bound =
    { d with stack := { top with failures := 0 } :: rest, assignment := none, bid := none } := by
  simp [Discovery.bound, h]

theorem roundFailed_again (hf : top.failures < 2) : d.roundFailed = { d with
    stack := { top with failures := top.failures + 1 } :: rest, assignment := none, bid := none } := by
  simp [Discovery.roundFailed, h, hf]

theorem roundFailed_drops (hf : 2 ≤ top.failures) : d.roundFailed = { d with
    stack := rest, unresponsive := satInc d.unresponsive, assignment := none, bid := none } := by
  simp [Discovery.roundFailed, h, show ¬ top.failures + 1 < 3 by omega]

end

/-! ### The assignment's entry (R22, R23, R111) -/

section
variable {l : Line} {a : Assignment} {s : State}

/-- An ACK that binds: the entry noted, the record's counts by `count`. -/
theorem bind_spec (e : NodeEntry) (count : Discovery → Discovery) :
    let u := (raiseNodeNotice a.entry (s.setNode a.entry e)).updDiscovery l count
    (∀ i, u.node i = if i = a.entry then noted e else s.node i) ∧
      u.reports = enqueueAll [.node a.entry] s.reports ∧
      (u.line l).discovery = count (s.line l).discovery := by
  intro u
  have hu : u = ((s.setNode a.entry (noted e)).withReports
      (enqueueAll [.node a.entry] s.reports)).updDiscovery l count := by
    simp only [u, raiseNodeNotice_eq, State.node_setNode_self, State.setNode_setNode,
      State.reports_setNode]
  rw [State.updDiscovery_eq] at hu
  refine ⟨fun i => ?_, ?_, ?_⟩
  · rw [hu, State.node_setLine, State.node_withReports, State.node_setNode]
  · rw [hu, State.reports_setLine, State.reports_withReports]
  · rw [hu, State.line_setLine_self, State.line_withReports, State.line_setNode]

theorem bindAssignment_claim (hc : a.claimed = true) (hh : (s.node a.entry).assignHold = true) :
    bindAssignment l a s =
      (raiseNodeNotice a.entry (s.setNode a.entry (s.node a.entry).bindClaim)).updDiscovery l
        fun d => { d.bound with found := satInc d.found } := by
  simp [bindAssignment, hc, hh]

theorem bindAssignment_reused (hc : a.claimed = false) (hs : (s.node a.entry).state ≠ .free)
    (hr : (s.node a.entry).removalPending = false) : bindAssignment l a s =
      (raiseNodeNotice a.entry (s.setNode a.entry (s.node a.entry).bindReused)).updDiscovery l
        fun d => { d.bound with reassigned := satInc d.reassigned } := by
  simp [bindAssignment, hc, NodeEntry.held, hs, hr]

/-- What binds only while held does nothing once it is not (log entry 28). -/
theorem bindAssignment_void (h : a.claimed = false ∧ (s.node a.entry).removalPending = true ∨
    a.claimed = true ∧ (s.node a.entry).assignHold = false ∨
    a.claimed = false ∧ (s.node a.entry).state = .free) : bindAssignment l a s = s := by
  obtain ⟨hc, h⟩ | ⟨hc, h⟩ | ⟨hc, h⟩ := h <;> simp [bindAssignment, hc, h, NodeEntry.held]

theorem failAssignment_early (h : a.claimed = false ∧ (s.node a.entry).removalPending = true ∨
    a.sent < 3) : failAssignment l a s = s := by
  unfold failAssignment
  split
  · rfl
  · rename_i hnot
    obtain ⟨hc, hr⟩ | h := h
    · simp [hc, hr] at hnot
    · exact if_pos h

theorem failAssignment_third (h : a.claimed = true ∨ (s.node a.entry).removalPending = false)
    (hs : 3 ≤ a.sent) :
    failAssignment l a s = (releaseClaim l s).updDiscovery l Discovery.roundFailed := by
  have hnot : (!a.claimed && (s.node a.entry).removalPending) = false := by
    obtain h | h := h <;> simp [h]
  simp only [failAssignment, hnot, Bool.false_eq_true, if_false, if_neg (Nat.not_lt.2 hs)]

/-- A round that ends without an ACK releases a claim. -/
theorem roundFailed_spec (ha : (s.line l).discovery.assignment = some a) :
    let u := (releaseClaim l s).updDiscovery l Discovery.roundFailed
    u.reports = s.reports ∧
      (∀ i, u.node i = if i = a.entry ∧ a.claimed = true then
        { s.node a.entry with assignHold := false } else s.node i) ∧
      (u.line l).discovery = (s.line l).discovery.roundFailed := by
  obtain ⟨hnode, hline, -, -, hreports, -⟩ := releaseClaim_spec l s
  intro u
  simp only [u, State.updDiscovery_eq, State.reports_setLine, State.node_setLine,
    State.line_setLine_self]
  refine ⟨hreports, fun i => ?_, by rw [hline]⟩
  rw [hnode, ha]
  by_cases hi : i = a.entry
  · subst hi; simp
  · have : (a.entry == i) = false := by simpa using Ne.symm hi
    simp [hi, this]

variable {d : Discovery} (hd : (s.line l).discovery = d) (hactive : d.active = true)
  (ha : d.assignment = some a)
include hd hactive ha

theorem tellAssign_reply (c : NodeReply) :
    tellAssign l (.reply c) s = bindAssignment l a s := by
  simp [tellAssign, hd, hactive, ha]

theorem tellAssign_failed {o : ExchangeOutcome} (h : o = .noReply ∨ o = .badReply ∨ o = .contention) :
    tellAssign l o s = failAssignment l a s := by
  obtain rfl | rfl | rfl := h <;> simp [tellAssign, hd, hactive, ha]

theorem tellAssign_cut {o : ExchangeOutcome} (h : o = .lineFault ∨ o = .aborted) :
    tellAssign l o s = s := by
  obtain rfl | rfl := h <;> simp [tellAssign, hd, hactive, ha]

end

/-- Settles O52: INVITE's outcomes at the stack, ASSIGN's at the assignment and its entry. -/
theorem discoveryOutcomesFollowTheirTable : Obligations.DiscoveryOutcomesFollowTheirTable := by
  intro s l x o top rest d u record quiet hx hactive hstack
  let w := s.setLine l ((s.line l).left x o)
  have hu : u = tellOwners l x o ((s.line l).guard.lineState == .stopping) w := fixOutcome_left hx
  have hdisc : (w.line l).discovery = d := by
    show ((s.setLine l _).line l).discovery = d
    rw [State.line_setLine_self]
    rfl
  have hnodes : w.nodes = s.nodes := State.nodes_setLine ..
  have hreports : w.reports = s.reports := State.reports_setLine ..
  have hnode (i : EntryIndex) : w.node i = s.node i := State.node_setLine ..
  refine ⟨fun hc => ?_, ?_⟩
  · have hu : u = w.setLine l ((w.line l).withDiscovery (d.inviteOutcome o)) := by
      rw [hu]
      simp only [tellOwners, hc]
      rw [tellInvite_active o (by rw [hdisc]; exact hactive), hdisc]
    have record_of {d1 : Discovery} (h : d.inviteOutcome o = d1) : record d1 := by
      show (u.line l).discovery = d1
      rw [hu, State.line_setLine_self, ← h]
      rfl
    refine ⟨⟨by rw [hu, State.nodes_setLine, hnodes], by rw [hu, State.reports_setLine, hreports]⟩, ?_⟩
    intro split collides
    have collides_of (h : d.inviteOutcome o = d.collision) : collides :=
      ⟨fun hlen => record_of (h.trans (collision_splits hstack hlen)),
        fun hlen => record_of (h.trans (collision_clashes hstack hlen))⟩
    refine ⟨?_, ?_, ?_, ?_⟩
    · rintro rfl; exact record_of (inviteOutcome_noReply hstack)
    · rintro rfl; exact collides_of rfl
    · rintro y rfl inRange
      have hbid := inviteOutcome_bid hstack y
      exact ⟨fun hin => record_of (hbid.trans (if_pos hin)),
        fun hout => collides_of (hbid.trans (if_neg hout))⟩
    · rintro (rfl | rfl | rfl) <;> exact record_of rfl
  · intro t a hc ha e bound binds
    have hu : u = tellAssign l o w := by
      rw [hu]
      simp only [tellOwners, hc]
    have still (h : tellAssign l o w = w) : quiet ∧ record d :=
      ⟨⟨by rw [hu, h, hnodes], by rw [hu, h, hreports]⟩, by
        show (u.line l).discovery = d
        rw [hu, h, hdisc]⟩
    refine ⟨fun ho => still (tellAssign_cut hdisc hactive ha ho), ?_, fun ho => ?_⟩
    · rintro c rfl
      have hreply := tellAssign_reply hdisc hactive ha c
      have binds_of {e1 : NodeEntry} {count : Discovery → Discovery} {d1 : Discovery}
          (h : bindAssignment l a w =
            (raiseNodeNotice a.entry (w.setNode a.entry e1)).updDiscovery l count)
          (hd : count d = d1) : binds e1 d1 := by
        obtain ⟨h1, h2, h3⟩ := bind_spec (l := l) (a := a) (s := w) e1 count
        rw [← h, ← hreply, ← hu] at h1 h2 h3
        exact ⟨fun i => (h1 i).trans (by rw [hnode]), h2.trans (by rw [hreports]),
          h3.trans (by rw [hdisc, hd])⟩
      have hbound : d.bound = bound := bound_stack hstack
      have void_of (h : a.claimed = false ∧ e.removalPending = true ∨
          a.claimed = true ∧ e.assignHold = false ∨ a.claimed = false ∧ e.state = .free) :
          quiet ∧ record d :=
        still (hreply.trans (bindAssignment_void (by rw [hnode]; exact h)))
      refine ⟨fun hclaim hhold => ?_, fun hclaim hheld hstays => ?_,
        fun hclaim hr => void_of (.inl ⟨hclaim, hr⟩), fun h => void_of (.inr h)⟩
      · have h := bindAssignment_claim (l := l) (s := w) hclaim (by rw [hnode]; exact hhold)
        rw [hnode] at h
        exact binds_of h (by rw [hbound])
      · have h := bindAssignment_reused (l := l) (s := w) hclaim (by rw [hnode]; exact hheld)
          (by rw [hnode]; exact hstays)
        rw [hnode, NodeEntry.bindReused] at h
        simp only [beq_iff_eq] at h
        exact binds_of h (by rw [hbound])
    · have hfail := tellAssign_failed hdisc hactive ha ho
      refine ⟨fun ⟨hclaim, hr⟩ => still (hfail.trans (failAssignment_early (.inl ⟨hclaim, by
        rw [hnode]; exact hr⟩))), fun hstays => ⟨fun hsent =>
          still (hfail.trans (failAssignment_early (.inr hsent))), fun hsent => ?_⟩⟩
      have hthird := failAssignment_third (l := l) (s := w) (by rw [hnode]; exact hstays) hsent
      obtain ⟨h1, h2, h3⟩ := roundFailed_spec (l := l) (s := w) (a := a) (by rw [hdisc]; exact ha)
      rw [← hthird, ← hfail, ← hu] at h1 h2 h3
      rw [hdisc] at h3
      exact ⟨h1.trans hreports, fun i => (h2 i).trans (by rw [hnode, hnode]),
        fun hf => h3.trans (roundFailed_again hstack hf),
        fun hf => h3.trans (roundFailed_drops hstack hf)⟩

end Sys2Proof.Machine

/-! Discovery: how a step goes on when its exchange has ended (R23, R102, R108 to R113). -/

namespace Sys2Proof.Machine

/-! ### Handing over an ASSIGN (R108 to R110) -/

theorem sendAssign_eq (l : Line) (a : Assignment) (x : Identity) (s : State) :
    sendAssign l a x s = s.setLine l
      { (s.line l).sends ⟨.assign x a.address,
          .assign (if a.claimed then none else some (s.handleOf a.entry))⟩ with
        discovery := { (s.line l).discovery with assignment := some { a with sent := a.sent + 1 } } } := by
  rw [sendAssign, State.updDiscovery_eq, beginExchange_eq, State.setLine_setLine,
    State.line_setLine_self]
  rfl

/-! ### The holder and the address of a bid (R6, R23, R108) -/

/-- Entry `i` is held on the line with the identity (R23). -/
def State.HoldsIdentity (s : State) (l : Line) (x : Identity) (i : EntryIndex) : Prop :=
  (s.node i).line = l ∧ (s.node i).state ≠ .free ∧ (s.node i).identity = some x

/-- The address is in the line's assign range and not in use on the line (R6). -/
def State.FreeAddress (s : State) (l : Line) (a : Address) : Prop :=
  (s.line l).guard.params.assignLow.toNat ≤ a.toNat ∧
    a.toNat ≤ (s.line l).guard.params.assignHigh.toNat ∧
    ∀ i : EntryIndex, (s.node i).address = a → (s.node i).line = l →
      (s.node i).state = .free ∧ (s.node i).assignHold = false

section
variable {l : Line} {s : State}

/-- What `holderOfIdentity` looks for. -/
theorem holdsIdentity_iff (x : Identity) (i : EntryIndex) :
    ((s.node i).line == l && (s.node i).held && (s.node i).identity == some x) = true ↔
      s.HoldsIdentity l x i := by
  simp [State.HoldsIdentity, NodeEntry.held, and_assoc]

theorem holderOfIdentity_eq_some {x : Identity} {i : EntryIndex} (h : s.HoldsIdentity l x i)
    (hlow : ∀ j : EntryIndex, j < i → ¬ s.HoldsIdentity l x j) :
    holderOfIdentity l x s = some i :=
  find?_finRange_eq_some _ i ((holdsIdentity_iff x i).2 h) fun j hj =>
    Bool.eq_false_iff.2 fun hp => hlow j hj ((holdsIdentity_iff x j).1 hp)

theorem holderOfIdentity_eq_none {x : Identity} (h : ∀ i : EntryIndex, ¬ s.HoldsIdentity l x i) :
    holderOfIdentity l x s = none :=
  find?_finRange_eq_none _ fun i => Bool.eq_false_iff.2 fun hp => h i ((holdsIdentity_iff x i).1 hp)

/-- The lowest address with a property is the first the search in order of address comes to. -/
theorem find?_addresses_eq_some {p : Address → Bool} {a : Address} (h : p a = true)
    (hlow : ∀ a' : Address, a'.toNat < a.toNat → p a' = false) :
    ((List.range 128).map fun n => BitVec.ofNat 7 n).find? p = some a := by
  have hback : BitVec.ofNat 7 a.toNat = a := by simp
  have hfirst : (List.range 128).find? (p ∘ fun n => BitVec.ofNat 7 n) = some a.toNat := by
    refine List.find?_range_eq_some.2 ⟨?_, List.mem_range.2 a.isLt, fun n hn => ?_⟩
    · rw [Function.comp_apply, hback, h]
    · have hlt := a.isLt
      rw [Function.comp_apply, hlow _ (by rw [BitVec.toNat_ofNat, Nat.mod_eq_of_lt (by omega)]; exact hn)]
      rfl
  rw [List.find?_map, hfirst, Option.map_some, hback]

/-- What `firstFreeAddress` looks for. -/
theorem freeAddress_iff (a : Address) :
    ((decide ((s.line l).guard.params.assignLow.toNat ≤ a.toNat) &&
        decide (a.toNat ≤ (s.line l).guard.params.assignHigh.toNat)) && !addressInUse l a s) = true ↔
      s.FreeAddress l a := by
  have huse : addressInUse l a s = false ↔ ∀ i : EntryIndex, (s.node i).address = a →
      (s.node i).line = l → (s.node i).state = .free ∧ (s.node i).assignHold = false := by
    rw [Bool.eq_false_iff, ne_eq, addressInUse_iff]
    grind
  simp only [Bool.and_eq_true, decide_eq_true_eq, Bool.not_eq_true', huse, and_assoc,
    State.FreeAddress]

theorem firstFreeAddress_eq_some {a : Address} (h : s.FreeAddress l a)
    (hlow : ∀ a' : Address, a'.toNat < a.toNat → ¬ s.FreeAddress l a') :
    firstFreeAddress l s = some a :=
  find?_addresses_eq_some ((freeAddress_iff a).2 h) fun a' ha' =>
    Bool.eq_false_iff.2 fun hp => hlow a' ha' ((freeAddress_iff a').1 hp)

theorem firstFreeAddress_eq_none (h : ∀ a : Address, ¬ s.FreeAddress l a) :
    firstFreeAddress l s = none :=
  List.find?_eq_none.2 fun a _ hp => h a ((freeAddress_iff a).1 hp)

/-! ### What a step does next -/

variable {c : Carried}

theorem continueStep_done (h : (s.line l).discovery.stack = []) :
    continueStep l c s = endRun l .done s := by
  simp [continueStep, h]

theorem continueStep_stops (h : (s.line l).discovery.stack ≠ []) :
    ((s.line l).discovery.stopPending = .cancelled → continueStep l c s = endRun l .cancelled s) ∧
      ((s.line l).discovery.stopPending = .lineStopped →
        continueStep l c s = endRun l .lineStopped s) := by
  obtain ⟨top, rest, hd⟩ := List.exists_cons_of_ne_nil h
  constructor <;> intro hp <;> simp [continueStep, hd, hp]

variable (hstack : (s.line l).discovery.stack ≠ [])
  (hstop : (s.line l).discovery.stopPending = .none)
include hstack hstop

theorem continueStep_noBid (h : (s.line l).discovery.bid = none) :
    continueStep l c s = endStep l s := by
  obtain ⟨top, rest, hd⟩ := List.exists_cons_of_ne_nil hstack
  cases c <;> simp [continueStep, hd, hstop, h]

theorem continueStep_bid {y : Identity} (h : (s.line l).discovery.bid = some y) :
    continueStep l .invite s = decideAssignment l y s := by
  obtain ⟨top, rest, hd⟩ := List.exists_cons_of_ne_nil hstack
  simp [continueStep, hd, hstop, h]

theorem continueStep_unassigned {t : Option Handle} (h : (s.line l).discovery.assignment = none) :
    continueStep l (.assign t) s = endStep l s := by
  obtain ⟨top, rest, hd⟩ := List.exists_cons_of_ne_nil hstack
  simp [continueStep, hd, hstop, h]

theorem continueStep_assigned {t : Option Handle} {y : Identity} {a : Assignment}
    (hbid : (s.line l).discovery.bid = some y) (ha : (s.line l).discovery.assignment = some a) :
    continueStep l (.assign t) s = if a.sent < 3 then sendAssign l a y s else endStep l s := by
  obtain ⟨top, rest, hd⟩ := List.exists_cons_of_ne_nil hstack
  simp [continueStep, hd, hstop, hbid, ha]

end

/-- Settles O53: the stack, the stop and the bid decide; a bid's assignment by its holder, entry and address. -/
theorem discoveryStepGoesOn : Obligations.DiscoveryStepGoesOn := by
  intro s l c b d u ends assigns
  have ends_of (h : u = endStep l s) : ends := h.trans (State.updScheduler_eq ..)
  refine ⟨continueStep_done, fun h => (continueStep_stops h).1, fun h => (continueStep_stops h).2,
    fun hstack hstop => ⟨fun hbid => ends_of (continueStep_noBid hstack hstop hbid), ?_⟩⟩
  intro y hbid holds free allocatable
  constructor
  · rintro rfl
    have hu : u = decideAssignment l y s := continueStep_bid hstack hstop hbid
    constructor
    · intro i hi hfirst
      have hholder : holderOfIdentity l y s = some i := holderOfIdentity_eq_some hi hfirst
      show u = _
      rw [hu, decideAssignment, hholder]
      exact sendAssign_eq ..
    · intro hnobody
      have hholder : holderOfIdentity l y s = none := holderOfIdentity_eq_none hnobody
      constructor
      · intro hfull
        have hentry : firstAllocatable s = none :=
          firstAllocatable_eq_none fun i hi => hfull i ((NodeEntry.allocatable_iff _).1 hi)
        rw [hu, decideAssignment, hholder, hentry]
      · intro i hi hfirst
        have hentry : firstAllocatable s = some i :=
          firstAllocatable_eq_some ((NodeEntry.allocatable_iff _).2 hi) fun j hj hp =>
            hfirst j hj ((NodeEntry.allocatable_iff _).1 hp)
        constructor
        · intro hempty
          have haddress : firstFreeAddress l s = none := firstFreeAddress_eq_none hempty
          rw [hu, decideAssignment, hholder, hentry, haddress]
        · intro a hfree hlow
          have haddress : firstFreeAddress l s = some a := firstFreeAddress_eq_some hfree hlow
          show u = _
          rw [hu, decideAssignment, hholder, hentry, haddress]
          refine (sendAssign_eq ..).trans ?_
          rw [State.line_setNode]
          rfl
  · rintro t rfl
    refine ⟨fun ha => ends_of (continueStep_unassigned hstack hstop ha), fun a ha => ?_⟩
    have hu := continueStep_assigned (t := t) hstack hstop hbid ha
    exact ⟨fun h => ends_of (hu.trans (if_neg (Nat.not_lt.2 h))),
      fun h => (hu.trans (if_pos h)).trans (sendAssign_eq ..)⟩

end Sys2Proof.Machine

/-! The end of an exchange: the expiry of the guard (R18, R62, R84, R113, R114, R126). -/

namespace Sys2Proof.Machine

theorem exec_guardExpiry {s : State} (l : Line) (h : s.resetPin = .high) :
    exec (.guardExpiry l) s = .next (arbitrate (expireGuard l s)) := command_high _ h

/-- What `targetLeaving` asks. -/
theorem targetLeaving_iff (c : Carried) (s : State) : targetLeaving c s = true ↔
    (c.target.filter fun h => (s.node h.index).removalPending) ≠ none := by
  unfold targetLeaving
  cases c.target with
  | none => simp
  | some h => simp [Option.filter]

section
variable {l : Line} {s : State}

/-! ### What the discovery unit does at the end of an exchange -/

theorem exchangeEnded_idle (c : Carried) (gone : Bool)
    (h : (s.line l).discovery.active = false ∨ (s.line l).scheduler.stepInProgress = false) :
    exchangeEnded l c gone s = s := by
  obtain h | h := h <;> simp [exchangeEnded, h]

theorem exchangeEnded_stepping (c : Carried) (gone : Bool)
    (ha : (s.line l).discovery.active = true) (hs : (s.line l).scheduler.stepInProgress = true) :
    exchangeEnded l c gone s = continueStep l c (if gone then s.setLine l { s.line l with
      discovery := { (s.line l).discovery with assignment := none, bid := none } } else s) := by
  simp [exchangeEnded, ha, hs, forgetAssignment, State.updDiscovery_eq]

/-! ### The end of an exchange in STOPPING -/

/-- The run of a line that goes DOWN ends with the stop pending, or DONE where its stack is empty. -/
theorem endRun_stopped (l : Line) (s : State) :
    let b := s.line l
    let d := b.discovery
    let u := if d.stack.isEmpty then endRun l .done s else endRunPending l .lineStopped s
    u.line l = { b with
        discovery := if d.active = true ∧ d.stack = [] then
          afterRun { d with stopPending := .none } .done else afterRun d .lineStopped
        scheduler := if d.active = true then { b.scheduler with stepInProgress := false }
          else b.scheduler } ∧
      (∀ i, u.node i = afterRunNode d i (s.node i)) ∧
      u.reports = enqueueAll (runSources l d) s.reports ∧
      u.records = s.records ∧ u.slots = s.slots ∧ KeptOutside l s u := by
  intro b d u
  by_cases hd : d.stack = []
  · have hu : u = endRun l .done s := if_pos (List.isEmpty_iff.2 hd)
    obtain ⟨hline, hrest⟩ := endRun_spec l .done s
    rw [hu]
    refine ⟨hline.trans ?_, hrest⟩
    by_cases ha : (s.line l).discovery.active = true
    · rw [if_pos (c := d.active = true ∧ d.stack = []) ⟨ha, hd⟩]
      simp [afterRun, ha, Discovery.ended, b, d]
    · rw [if_neg (c := d.active = true ∧ d.stack = []) fun h => ha h.1]
      simp [afterRun, ha, b, d]
  · have hu : u = endRunPending l .lineStopped s := if_neg (mt List.isEmpty_iff.1 hd)
    obtain ⟨hline, hrest⟩ := endRunPending_spec l .lineStopped s
    rw [hu, if_neg (c := d.active = true ∧ d.stack = []) fun h => hd h.2]
    exact ⟨hline, hrest⟩

theorem completeStop_spec (l : Line) (s : State) :
    let b := s.line l
    let d := b.discovery
    let u := completeStop l s
    u.line l = { b.goDown with
        guard := { b.goDown.guard with noticePending := true }
        discovery := if d.active = true ∧ d.stack = [] then
          afterRun { d with stopPending := .none } .done else afterRun d .lineStopped } ∧
      (∀ i, u.node i = afterRunNode d i (s.node i)) ∧
      u.reports = enqueueAll (.line l :: runSources l d) s.reports ∧
      u.records = s.records ∧ u.slots = s.slots ∧ KeptOutside l s u := by
  intro b d u
  let t := raiseLineNotice l (s.updLine l LineBlock.goDown)
  have ht : t = (s.setLine l { b.goDown with
      guard := { b.goDown.guard with noticePending := true } }).withReports
        (enqueueAll [.line l] s.reports) := by
    simp only [t, raiseLineNotice_eq, State.updLine_eq, State.line_setLine_self,
      State.setLine_setLine, State.reports_setLine]
    rfl
  have hline : t.line l = { b.goDown with
      guard := { b.goDown.guard with noticePending := true } } := by
    rw [ht, State.line_withReports, State.line_setLine_self]
  have hd : (t.line l).discovery = d := by rw [hline]; rfl
  obtain ⟨h1, h2, h3, h4, h5, h6⟩ := endRun_stopped l t
  change u.line l = _ at h1
  change ∀ i, u.node i = _ at h2
  change u.reports = _ at h3
  rw [hline] at h1
  rw [hd] at h3
  simp only [hd] at h2
  have hkept : KeptOutside l s t := by
    rw [ht]
    exact (keptOutside_setLine ..).trans (keptOutside_withReports ..)
  refine ⟨h1.trans ?_, fun i => (h2 i).trans ?_, h3.trans ?_, h4.trans ?_, h5.trans ?_,
    hkept.trans h6⟩
  · have hstep : ({ b.goDown.scheduler with stepInProgress := false } : Scheduler) =
        b.goDown.scheduler := rfl
    simp only [hstep, ite_self]
    rfl
  · rw [ht, State.node_withReports, State.node_setLine]
  · rw [ht, State.reports_withReports]
    exact (enqueueAll_append [.line l] _ _).symm
  · rw [ht, State.records_withReports, State.records_setLine]
  · rw [ht, State.slots_withReports, State.slots_setLine]

/-! ### The guard's expiry -/

variable {x : Exchange} {o : ExchangeOutcome} {t : Duration}
  (hguard : (s.line l).engine = .guard x o t)
include hguard

theorem expireGuard_running (h : (s.line l).guard.lineState = .running) : expireGuard l s =
    choose l (exchangeEnded l x.carried (targetLeaving x.carried s) (finishExchange l x.carried s)) := by
  simp only [expireGuard, hguard, h]

theorem expireGuard_stopping (h : (s.line l).guard.lineState = .stopping) :
    expireGuard l s = completeStop l (finishExchange l x.carried s) := by
  simp only [expireGuard, hguard, h]

theorem expireGuard_faulted (h : (s.line l).guard.lineState = .faulted) :
    expireGuard l s = finishExchange l x.carried s := by
  simp only [expireGuard, hguard, h]

end

/-- Settles O54: the exchange ends and its target leaves; then the line state decides. -/
theorem guardExpiryEndsTheExchange : Obligations.GuardExpiryEndsTheExchange := by
  intro s l x o t b d left v ended hpin hguard
  have hexpire {u : State} (h : expireGuard l s = u) : ended u :=
    (exec_guardExpiry l hpin).trans (by rw [h])
  have hv := finishExchange_spec l x.carried s
  obtain ⟨hline, hnode, hreports, hrecords, hslots, hkept⟩ := hv
  change v.line l = { b with engine := .idle } at hline
  have hd : (v.line l).discovery = d := by rw [hline]
  have hsched : (v.line l).scheduler = b.scheduler := by rw [hline]
  refine ⟨finishExchange_spec l x.carried s, fun hrun hstill => ?_, fun hrun hactive hstep => ?_,
    fun hfault => hexpire (expireGuard_faulted hguard hfault), fun hstop => ?_⟩
  · refine hexpire ((expireGuard_running hguard hrun).trans ?_)
    rw [exchangeEnded_idle _ _ (by rw [hd, hsched]; exact hstill)]
  · refine hexpire ((expireGuard_running hguard hrun).trans ?_)
    rw [exchangeEnded_stepping _ _ (by rw [hd]; exact hactive) (by rw [hsched]; exact hstep)]
    by_cases hleft : left = none
    · rw [if_pos hleft, if_neg (mt (targetLeaving_iff ..).1 (not_not.2 hleft))]
    · rw [if_neg hleft, if_pos ((targetLeaving_iff ..).2 hleft)]
      change choose l (continueStep l x.carried (v.setLine l { v.line l with
        discovery := { (v.line l).discovery with assignment := none, bid := none } })) = _
      rw [hline]
  · obtain ⟨h1, h2, h3, h4, h5, h6⟩ := completeStop_spec l v
    rw [hline] at h1 h3
    simp only [hline] at h2
    exact ⟨_, hexpire (expireGuard_stopping hguard hstop), h1, h2, h3, h4.trans hrecords,
      h5.trans hslots, hkept.trans h6⟩

end Sys2Proof.Machine

/-! The scheduler's order of choice (R52 to R61, Tables 3-3 and 3-4). -/

namespace Sys2Proof.Machine

/-! ### Due entries (Table 3-3) -/

theorem NodeEntry.due_iff (e : NodeEntry) (l : Line) (c : Word16) (i : EntryIndex) :
    e.due l c i = true ↔ e.line = l ∧
      ((e.state = .pending ∨ e.state = .active ∨ e.state = .silent) ∧
        (e.morePending = true ∨ e.pollClass = .fast ∨
          (e.pollClass = .steady ∧ c.toNat % 4 = i.val % 4) ∨
          (e.pollClass = .slow ∧ c.toNat % 16 = i.val % 16)) ∨
      e.state = .lost ∧ (e.morePending = true ∨ c.toNat % 32 = i.val % 32)) := by
  simp only [NodeEntry.due, Bool.and_eq_true, beq_iff_eq]
  refine and_congr_right fun _ => ?_
  cases e.state <;> cases e.pollClass <;> simp

section
variable {l : Line} {s : State}

theorem firstDue_eq_some {i : EntryIndex} (hwalk : (s.line l).scheduler.walk ≤ i.val)
    (hdue : (s.node i).due l (s.line l).scheduler.cycle i = true)
    (hlow : ∀ j : EntryIndex, (s.line l).scheduler.walk ≤ j.val → j < i →
      ¬ (s.node j).due l (s.line l).scheduler.cycle j = true) : firstDue l s = some i := by
  show entryIndexes.find? (fun j => decide ((s.line l).scheduler.walk ≤ j.val) &&
    (s.node j).due l (s.line l).scheduler.cycle j) = some i
  refine find?_finRange_eq_some _ i ?_ fun j hj => Bool.eq_false_iff.2 fun hp => ?_
  · exact Bool.and_eq_true_iff.2 ⟨decide_eq_true hwalk, hdue⟩
  obtain ⟨hw, hd⟩ := Bool.and_eq_true_iff.1 hp
  exact hlow j (of_decide_eq_true hw) hj hd

theorem firstDue_eq_none (h : ∀ i : EntryIndex, (s.line l).scheduler.walk ≤ i.val →
    ¬ (s.node i).due l (s.line l).scheduler.cycle i = true) : firstDue l s = none := by
  refine find?_finRange_eq_none _ fun i => Bool.eq_false_iff.2 fun hp => ?_
  obtain ⟨hw, hd⟩ := Bool.and_eq_true_iff.1 hp
  exact h i (of_decide_eq_true hw) hd

/-! ### The first step whose condition holds (Table 3-4) -/

theorem orderOfChoice_urgent {r : RecordIndex} {q : List RecordIndex}
    (h : (s.line l).urgent = r :: q) : orderOfChoice l s = .urgent r := by
  simp [orderOfChoice, h]

section
variable (hurgent : (s.line l).urgent = [])
include hurgent

theorem orderOfChoice_normal {r : RecordIndex} {q : List RecordIndex}
    (h : (s.line l).normal = r :: q) (hshare : (s.line l).scheduler.interleaveCount <
      (s.line l).guard.params.interleave.toNat) : orderOfChoice l s = .normal r := by
  simp [orderOfChoice, hurgent, h, hshare]

theorem orderOfChoice_afterQueues (hshare : ¬ ((s.line l).normal ≠ [] ∧
    (s.line l).scheduler.interleaveCount < (s.line l).guard.params.interleave.toNat)) :
    orderOfChoice l s = afterQueues l s := by
  cases hn : (s.line l).normal with
  | nil => simp only [orderOfChoice, hurgent, hn]
  | cons r q =>
    have hlate : ¬ (s.line l).scheduler.interleaveCount <
        (s.line l).guard.params.interleave.toNat := fun h => hshare ⟨by simp [hn], h⟩
    simp only [orderOfChoice, hurgent, hn, hlate, if_false]

end

theorem afterQueues_poll {i : EntryIndex} (h : firstDue l s = some i) :
    afterQueues l s = .poll i := by
  simp [afterQueues, h]

theorem afterQueues_none (h : firstDue l s = none) : afterQueues l s = afterWalk (s.line l) := by
  simp [afterQueues, h]

end

section
variable {b : LineBlock}

/-- The condition of step 4. -/
theorem turn_iff : (!b.scheduler.turnTaken && b.discovery.active && !b.discovery.stack.isEmpty) =
    true ↔ b.scheduler.turnTaken = false ∧ b.discovery.active = true ∧ b.discovery.stack ≠ [] := by
  simp [and_assoc]

theorem afterWalk_discovery (h : b.scheduler.turnTaken = false ∧ b.discovery.active = true ∧
    b.discovery.stack ≠ []) : afterWalk b = .discovery := if_pos (turn_iff.2 h)

variable (hturn : ¬ (b.scheduler.turnTaken = false ∧ b.discovery.active = true ∧
  b.discovery.stack ≠ []))
include hturn

theorem afterWalk_lateNormal {r : RecordIndex} {q : List RecordIndex} (h : b.normal = r :: q) :
    afterWalk b = .lateNormal r := by
  rw [afterWalk, if_neg (mt turn_iff.1 hturn), h]

theorem afterWalk_endCycle (h : b.normal = []) (hfloor : b.scheduler.floor = .elapsed) :
    afterWalk b = .endCycle := by
  rw [afterWalk, if_neg (mt turn_iff.1 hturn), h, hfloor]
  rfl

theorem afterWalk_wait (h : b.normal = []) (hfloor : b.scheduler.floor ≠ .elapsed) :
    afterWalk b = .wait := by
  rw [afterWalk, if_neg (mt turn_iff.1 hturn), h]
  exact if_neg (mt beq_iff_eq.1 hfloor)

end

/-! ### Making the choice (R54, R55) -/

section
variable {l : Line} {s : State}

theorem afterWalk_ne_endCycle {b : LineBlock} (h : b.scheduler.floor ≠ .elapsed) :
    afterWalk b ≠ .endCycle := by
  unfold afterWalk
  split
  · nofun
  · split
    · nofun
    · rw [if_neg (mt beq_iff_eq.1 h)]
      nofun

/-- No step but the sixth ends the cycle, and it needs the floor to have elapsed. -/
theorem orderOfChoice_ne_endCycle (h : (s.line l).scheduler.floor ≠ .elapsed) :
    orderOfChoice l s ≠ .endCycle := by
  have hlate : afterQueues l s ≠ .endCycle := by
    unfold afterQueues
    split
    · nofun
    · exact afterWalk_ne_endCycle h
  unfold orderOfChoice
  dsimp only
  split
  · nofun
  · split
    · nofun
    · exact hlate
  · exact hlate

theorem choose_notEntitled (h : ¬ (s.line l).entitled = true) : choose l s = s := if_neg h

theorem choose_applies (h : (s.line l).entitled = true) (hc : orderOfChoice l s ≠ .endCycle) :
    choose l s = applyChoice l (orderOfChoice l s) s := by
  rw [choose, if_pos h]
  split
  · rename_i he; exact absurd he hc
  · rfl

theorem line_endCycle (l : Line) (s : State) : (endCycle l s).line l = { s.line l with
    scheduler := { (s.line l).scheduler with
      cycle := (s.line l).scheduler.cycle + 1, walk := 0, turnTaken := false
      floor := .running (floorTime (s.line l).guard.params) }
    guard := { (s.line l).guard with counters := { (s.line l).guard.counters with
      cyclesCompleted := satInc (s.line l).guard.counters.cyclesCompleted } } } :=
  State.line_setLine_self ..

/-- Step 6 chooses again in the new cycle, which it cannot end. -/
theorem choose_endCycle (h : (s.line l).entitled = true) (hc : orderOfChoice l s = .endCycle) :
    choose l s = choose l (endCycle l s) := by
  have hagain : ((endCycle l s).line l).entitled = true := by rw [line_endCycle]; exact h
  have hfloor : ((endCycle l s).line l).scheduler.floor ≠ .elapsed := by rw [line_endCycle]; nofun
  rw [choose_applies hagain (orderOfChoice_ne_endCycle hfloor), choose, if_pos h, hc]

end

/-- Settles O55: each step of the order by the condition that reaches it. -/
theorem schedulerFollowsTheOrderOfChoice : Obligations.SchedulerFollowsTheOrderOfChoice := by
  intro s l b k entitled due now whole u
  have hdue (i : EntryIndex) : (s.node i).due l k.cycle i = true ↔ due i := NodeEntry.due_iff ..
  refine ⟨fun h => choose_notEntitled (mt (LineBlock.entitled_iff b).1 h), fun h => ?_⟩
  have hent : (s.line l).entitled = true := (LineBlock.entitled_iff b).2 h
  have does {c : Choice} (hc : orderOfChoice l s = c) (hne : c ≠ .endCycle) :
      u = applyChoice l c s := by
    rw [← hc] at hne ⊢
    exact choose_applies hent hne
  refine ⟨fun r q hq => does (orderOfChoice_urgent hq) nofun, ?_⟩
  intro hurgent share
  refine ⟨fun r q hshare hq => does (orderOfChoice_normal hurgent hq hshare.2) nofun, ?_⟩
  intro hshare
  have hqueues := orderOfChoice_afterQueues hurgent hshare
  refine ⟨fun i hwalk hi hfirst => ?_, ?_⟩
  · exact does (hqueues.trans (afterQueues_poll (firstDue_eq_some hwalk ((hdue i).2 hi)
      fun j hw hj hp => hfirst j hw hj ((hdue j).1 hp)))) nofun
  · intro hnone turn
    have hwalk := hqueues.trans (afterQueues_none (firstDue_eq_none fun i hw hp =>
      hnone i hw ((hdue i).1 hp)))
    refine ⟨fun hturn => ?_, fun hturn => ⟨fun r q hq =>
      does (hwalk.trans (afterWalk_lateNormal hturn hq)) nofun, fun hq hfloor =>
      does (hwalk.trans (afterWalk_wait hturn hq hfloor)) nofun, fun hq hfloor =>
      choose_endCycle hent (hwalk.trans (afterWalk_endCycle hturn hq hfloor))⟩⟩
    have hu := does (hwalk.trans (afterWalk_discovery hturn)) nofun
    rw [hu, applyChoice, walkComplete, State.updScheduler_eq, State.updScheduler_eq,
      State.setLine_setLine, State.line_setLine_self]

end Sys2Proof.Machine

/-! What the scheduler's picks hand to the line engine (R32, R33, R57, R58, R63, R64, R90, R103). -/

namespace Sys2Proof.Machine

section
variable {l : Line} {s : State}

/-! ### Records (R32, R33) -/

theorem pickRecord_eq (l : Line) (r : RecordIndex) (s : State) : pickRecord l r s =
    (s.setRecord r { s.record r with
        state := .inFlight, deadline := none, deadlineTimer := none }).setLine l
      { (s.line l).sends ⟨recordFrame (s.record r) s, .transfer r (s.record r).target⟩ with
        urgent := (s.line l).urgent.erase r, normal := (s.line l).normal.erase r } := by
  rw [pickRecord, beginExchange_eq, State.updLine_eq, State.setRecord_setLine,
    State.setLine_setLine, State.line_setLine_self]
  rfl

/-! ### POLLs (R57, R64, R90) -/

theorem State.setSlot_setLine (s : State) (l : Line) (b : LineBlock) (k : SlotIndex)
    (x : ReceiveSlot) : (s.setLine l b).setSlot k x = (s.setSlot k x).setLine l b := by
  cases l <;> rfl

theorem firstFreeSlot_eq_none (h : ∀ k : SlotIndex, (s.slot k).state ≠ .free) :
    firstFreeSlot s = none :=
  find?_finRange_eq_none _ fun k => beq_eq_false_iff_ne.2 (h k)

theorem firstFreeSlot_eq_some {k : SlotIndex} (h : (s.slot k).state = .free)
    (hlow : ∀ j : SlotIndex, j < k → (s.slot j).state ≠ .free) : firstFreeSlot s = some k :=
  find?_finRange_eq_some _ k (beq_iff_eq.2 h) fun j hj => beq_eq_false_iff_ne.2 (hlow j hj)

/-- The line with a POLL to entry `i` handed to its engine. -/
def State.polls (s : State) (l : Line) (i : EntryIndex) (slot : Option SlotIndex) : LineBlock :=
  { (s.line l).sends ⟨.poll (s.node i).address (s.node i).acceptedToggle slot.isNone
      (s.node i).restartPending, .poll (s.handleOf i) slot⟩ with
    scheduler := { (s.line l).scheduler with walk := i.val + 1, interleaveCount := 0 } }

theorem pickPoll_noSlot (i : EntryIndex) (h : firstFreeSlot s = none) :
    pickPoll l i s = s.setLine l (s.polls l i none) := by
  simp only [pickPoll, h, State.updScheduler_eq, beginExchange_eq, State.setLine_setLine,
    State.line_setLine_self]
  rfl

theorem pickPoll_slot (i : EntryIndex) {k : SlotIndex} (h : firstFreeSlot s = some k) :
    pickPoll l i s = (s.setSlot k { s.slot k with
      state := .reserved, line := l, handle := s.handleOf i
      address := (s.node i).address }).setLine l (s.polls l i (some k)) := by
  simp only [pickPoll, h, State.updScheduler_eq, beginExchange_eq, reserveSlot, State.slot_setLine,
    State.node_setLine, State.setSlot_setLine, State.setLine_setLine, State.line_setLine_self]
  rfl

/-! ### INVITEs (R58, R103) -/

theorem openStep_eq {top : IdRange} {rest : List IdRange}
    (h : (s.line l).discovery.stack = top :: rest) : openStep l s = s.setLine l
      { (s.line l).sends ⟨.invite top.length top.value, .invite⟩ with
        scheduler := { (s.line l).scheduler with stepInProgress := true } } := by
  simp only [openStep, h, State.updScheduler_eq, beginExchange_eq, State.setLine_setLine,
    State.line_setLine_self]
  rfl

end

/-- Settles O56: a record, a POLL with and without a slot, and an INVITE. -/
theorem picksBuildTheirExchanges : Obligations.PicksBuildTheirExchanges := by
  intro s l b
  refine ⟨?_, ?_, fun top rest h => openStep_eq h⟩
  · intro r x frame f hf
    have hframe : recordFrame x s = f := by
      cases hk : x.kind <;> cases ht : x.target <;>
        simp only [frame, hk, ht, reduceCtorEq, Option.some.injEq] at hf <;>
        simp only [recordFrame, hk, ht, ← hf]
    rw [pickRecord_eq, hframe]
  · intro i e h polled
    constructor
    · intro hfull
      exact pickPoll_noSlot i (firstFreeSlot_eq_none hfull)
    · intro k hfree hlow
      exact pickPoll_slot i (firstFreeSlot_eq_some hfree hlow)

end Sys2Proof.Machine

/-! The line guard: a line that starts, recovers, stops after its hold, and faults (R62, R119 to R124). -/

namespace Sys2Proof.Machine

theorem raiseLineNotice_setLine (l : Line) (s : State) (b : LineBlock) :
    raiseLineNotice l (s.setLine l b) =
      (s.setLine l { b with guard := { b.guard with noticePending := true } }).withReports
        (enqueueAll [.line l] s.reports) := by
  rw [raiseLineNotice_eq, State.line_setLine_self, State.setLine_setLine, State.reports_setLine]

section
variable {l : Line} {s : State} {d : Duration}

/-! ### The events of a line that starts (R62, R119, R124) -/

theorem endWakeBreak_eq (hstate : (s.line l).guard.lineState = .starting)
    (hwatch : (s.line l).guard.watch = .wakeBreak d) : endWakeBreak l s = s.setLine l { s.line l with
      pins := { (s.line l).pins with tx := .rest, de := false }
      guard := { (s.line l).guard with watch := .quiet (quietTime (s.line l).guard.params) } } := by
  simp only [endWakeBreak, State.updLine_eq, hstate, hwatch]

theorem completeQuiet_eq (hstate : (s.line l).guard.lineState = .starting)
    (hwatch : (s.line l).guard.watch = .quiet d) (hrx : (s.line l).pins.rx = .recessive) :
    completeQuiet l s =
      choose l (raiseLineNotice l (s.setLine l (s.line l).enterRunning.startScheduler)) := by
  simp only [completeQuiet, State.updLine_eq, hstate, hwatch, hrx]

theorem completeRecoveryWatch_eq (hstate : (s.line l).guard.lineState = .recovering)
    (hwatch : (s.line l).guard.watch = .recovery d) (hrx : (s.line l).pins.rx = .recessive) :
    completeRecoveryWatch l s =
      raiseLineNotice l (s.setLine l ((s.line l).enterStarting .recovery)) := by
  simp only [completeRecoveryWatch, State.updLine_eq, hstate, hwatch, hrx]

theorem spoilQuiet_eq (hstate : (s.line l).guard.lineState = .starting)
    (hwatch : (s.line l).guard.watch = .quiet d) :
    spoilQuiet l s = enterFaulted l .startNotQuiet s := by
  simp only [spoilQuiet, hstate, hwatch]

theorem spoilRecoveryWatch_eq (hstate : (s.line l).guard.lineState = .recovering)
    (hwatch : (s.line l).guard.watch = .recovery d) :
    spoilRecoveryWatch l s = enterFaulted l .recoveryNotQuiet s := by
  simp only [spoilRecoveryWatch, hstate, hwatch]

theorem stickDominant_eq
    (hstate : (s.line l).guard.lineState = .running ∨ (s.line l).guard.lineState = .stopping)
    (hde : (s.line l).pins.de = false) (hrun : (s.line l).guard.stuckRun = some d) :
    stickDominant l s = enterFaulted l .stuck s := by
  simp [stickDominant, (LineState.watched_iff _).2 hstate, hde, hrun]

/-! ### The fault hold (R123) -/

theorem expireHold_eq (hstate : (s.line l).guard.lineState = .faulted)
    (hhold : (s.line l).guard.holdTimer = some d) : expireHold l s =
      if (s.line l).guard.stopAfterHold then finishStop l (cutGuard l s)
      else beginRecovery l (cutGuard l s) := by
  simp [expireHold, hstate, hhold]

/-- A GUARD is cut short as the hold expires: the same expiry of the state the cut leaves. -/
theorem expireHold_cut {x : Exchange} {o : ExchangeOutcome} {t : Duration}
    (hstate : (s.line l).guard.lineState = .faulted)
    (hhold : (s.line l).guard.holdTimer = some d) (hguard : (s.line l).engine = .guard x o t) :
    expireHold l s = expireHold l (finishExchange l x.carried s) := by
  have hline := (finishExchange_spec l x.carried s).1
  have hg : ((finishExchange l x.carried s).line l).guard = (s.line l).guard := by rw [hline]
  have hidle : ((finishExchange l x.carried s).line l).engine = .idle := by rw [hline]
  rw [expireHold_eq hstate hhold, expireHold_eq (s := finishExchange l x.carried s)
    (by rw [hg]; exact hstate) (by rw [hg]; exact hhold), cutGuard_guard hguard,
    cutGuard_idle hidle, hg]

theorem beginRecovery_eq (l : Line) (s : State) :
    let u := raiseLineNotice l (s.setLine l (s.line l).enterRecovering)
    beginRecovery l s =
      if (s.line l).pins.rx = .dominant then enterFaulted l .recoveryNotQuiet u else u := by
  intro u
  have hrx : (u.line l).pins.rx = (s.line l).pins.rx := by
    simp only [u]
    rw [raiseLineNotice_setLine, State.line_withReports, State.line_setLine_self]
    rfl
  have hu : beginRecovery l s = match (u.line l).pins.rx with
      | .dominant => enterFaulted l .recoveryNotQuiet u
      | .recessive => u := by
    simp only [beginRecovery, State.updLine_eq, u] <;> rfl
  rw [hu, hrx]
  cases (s.line l).pins.rx <;> rfl

/-- The stop that a fault interrupted: DOWN, the queues ABORTED, a notice. -/
theorem finishStop_spec (l : Line) (s : State) :
    let b := s.line l
    let u := finishStop l s
    u.line l = { b.goDown with
        guard := { b.goDown.guard with noticePending := true }, urgent := [], normal := [] } ∧
      (∀ r, u.record r =
        if r ∈ b.queued then completedWith .aborted (s.record r) else s.record r) ∧
      u.reports = enqueueAll (b.queued.map Source.completion ++ [.line l]) s.reports ∧
      u.nodes = s.nodes ∧ u.slots = s.slots ∧ KeptOutside l s u := by
  intro b u
  let t := (abortQueued l (s.setLine l b.goDown)).1
  obtain ⟨-, hrecord, hline, hreports, hnodes, hslots, hkept⟩ :=
    abortQueued_spec l (s.setLine l b.goDown)
  rw [State.line_setLine_self] at hreports
  simp only [State.line_setLine_self, State.record_setLine] at hrecord hline
  have hu : u = (t.setLine l { t.line l with
      guard := { (t.line l).guard with noticePending := true } }).withReports
        (enqueueAll [.line l] t.reports) := raiseLineNotice_eq l t
  refine ⟨?_, fun r => ?_, ?_, ?_, ?_, ?_⟩
  · rw [hu, State.line_withReports, State.line_setLine_self, hline]
  · rw [hu, State.record_withReports, State.record_setLine]
    exact hrecord r
  · rw [hu, State.reports_withReports, enqueueAll_append]
    exact congrArg _ (hreports.trans (by rw [State.reports_setLine]; rfl))
  · rw [hu, State.nodes_withReports, State.nodes_setLine]
    exact hnodes.trans (State.nodes_setLine ..)
  · rw [hu, State.slots_withReports, State.slots_setLine]
    exact hslots.trans (State.slots_setLine ..)
  · rw [hu]
    exact (((keptOutside_setLine ..).trans hkept).trans (keptOutside_setLine ..)).trans
      (keptOutside_withReports ..)

end

/-- Settles O58: each watch's end by its event, and the hold's by the cut, the stop and the level. -/
theorem linesStartAndRecover : Obligations.LinesStartAndRecover := by
  intro s l d hpin b g raised
  have does {f : State → State} {u : State} (h : f s = u) : command f s = .next (arbitrate u) :=
    (command_high f hpin).trans (by rw [h])
  have hraised (b1 : LineBlock) : raiseLineNotice l (s.setLine l b1) = raised b1 :=
    raiseLineNotice_setLine l s b1
  refine ⟨fun hs hw => does (endWakeBreak_eq hs hw), fun hs hw hrx => ?_, fun hs hw hrx => ?_, ?_⟩
  · exact does ((completeQuiet_eq hs hw hrx).trans (by rw [hraised]; rfl))
  · exact does ((completeRecoveryWatch_eq hs hw hrx).trans (hraised _))
  · intro hs hh recovering
    have hexpire := expireHold_eq hs hh
    have recovers (he : b.engine = .idle) (hstop : g.stopAfterHold = false) : expireHold l s =
        if b.pins.rx = .dominant then enterFaulted l .recoveryNotQuiet recovering else recovering := by
      have hnot : ¬ (s.line l).guard.stopAfterHold = true := Bool.eq_false_iff.1 hstop
      rw [hexpire, if_neg hnot, cutGuard_idle he, beginRecovery_eq]
      simp only [hraised]
      rfl
    refine ⟨fun he hstop hrx => does ((recovers he hstop).trans (if_neg (by rw [hrx]; decide))),
      fun he hstop hrx => does ((recovers he hstop).trans (if_pos hrx)), fun he hstop => ?_,
      fun x o t hguard => ?_⟩
    · refine ⟨_, does (hexpire.trans (by rw [if_pos hstop, cutGuard_idle he])), finishStop_spec l s⟩
    · obtain ⟨-, -, -, -, -, -, -, hpin', -⟩ := finishExchange_spec l x.carried s
      exact (does (expireHold_cut hs hh hguard)).trans (command_high _ (hpin'.trans hpin)).symm

/-! ### Entering FAULTED (R85, R114, R122) -/

theorem LineBlock.enterFault_eq (b : LineBlock) (why : FaultReason) : b.enterFault why = { b with
    guard := { b.guard with
      lineState := .faulted
      faultReason := why
      stopAfterHold := b.guard.stopAfterHold || decide (b.guard.lineState = .stopping)
      recoveryCount := if b.guard.lineState = .recovering ∨
        (b.guard.lineState = .starting ∧ b.guard.startCause = .recovery) then
        satInc b.guard.recoveryCount else b.guard.recoveryCount
      holdTimer := some (b.guard.params.faultHold.toNat * (10 * millisecond))
      watch := .stopped
      stuckRun := none
      counters := { b.guard.counters with faults := satInc b.guard.counters.faults } }
    pins := { b.pins with tx := .rest, de := false }
    scheduler := { b.scheduler with running := false, floor := .stopped, stepInProgress := false } } := by
  simp only [LineBlock.enterFault, Bool.or_eq_true, Bool.and_eq_true, beq_iff_eq]
  rfl

theorem enterFaulted_spec (l : Line) (why : FaultReason) (s : State) :
    let v := fixOutcome l .lineFault s
    let b := (v.line l).enterFault why
    let d := (v.line l).discovery
    let u := enterFaulted l why s
    u.line l = { b with
        guard := { b.guard with noticePending := true }, discovery := afterRun d .lineFault } ∧
      (∀ i, u.node i = afterRunNode d i (v.node i)) ∧
      u.reports = enqueueAll (.line l :: runSources l d) v.reports ∧
      u.records = v.records ∧ u.slots = v.slots ∧ KeptOutside l v u := by
  intro v b d u
  let t := (v.setLine l { b with guard := { b.guard with noticePending := true } }).withReports
    (enqueueAll [.line l] v.reports)
  have hu : u = endRunPending l .lineFault t :=
    congrArg (endRunPending l .lineFault) (raiseLineNotice_setLine l v b)
  have hline : t.line l = { b with guard := { b.guard with noticePending := true } } :=
    State.line_setLine_self ..
  have hd : (t.line l).discovery = d := by rw [hline]; rfl
  obtain ⟨h1, h2, h3, h4, h5, h6⟩ := endRunPending_spec l .lineFault t
  rw [hd] at h3
  simp only [hd] at h2
  rw [hu]
  refine ⟨h1.trans ?_, fun i => (h2 i).trans ?_, h3.trans (enqueueAll_append [.line l] _ _).symm,
    h4.trans (State.records_setLine ..), h5.trans (State.slots_setLine ..),
    ((keptOutside_setLine ..).trans (keptOutside_withReports ..)).trans h6⟩
  · have hstep : ({ b.scheduler with stepInProgress := false } : Scheduler) = b.scheduler := rfl
    rw [hline]
    simp only [hstep, ite_self]
    rfl
  · rw [State.node_withReports, State.node_setLine]

/-- Settles O59: the three events enter FAULTED, which fixes LINE_FAULT, raises and ends the run. -/
theorem faultsEnterFaulted : Obligations.FaultsEnterFaulted := by
  intro s l b g
  refine ⟨fun hpin d => ⟨fun hs hw => ?_, fun hs hw => ?_, fun hs hde hrun => ?_⟩, ?_⟩
  · exact (command_high _ hpin).trans (by rw [spoilQuiet_eq hs hw])
  · exact (command_high _ hpin).trans (by rw [spoilRecoveryWatch_eq hs hw])
  · exact (command_high _ hpin).trans (by rw [stickDominant_eq hs hde hrun])
  · intro why v w u
    obtain ⟨hline, hrest⟩ := enterFaulted_spec l why s
    exact ⟨hline.trans (by rw [LineBlock.enterFault_eq]), hrest⟩

end Sys2Proof.Machine
